-- ==== Sys2Proof/Word.lean ====
section
/-! DEFINITION. The words of the SL3210: line and record characters, 16-bit check values, station sets,
instants, and four like things side by side (the grid contacts). -/

namespace Sys2Proof

/-- A character of the depot line (R1) or a byte of the post link (R153). -/
abbrev Byte := BitVec 8

/-- A 16-bit check value: CRC-16 and grant digest (R5, R130). -/
abbrev Word16 := BitVec 16

/-- A set of station numbers 0 to 31, as a ROSTER rider carries it: bit k for station k (R3, R55). -/
abbrev StationSet := BitVec 32

/-- An instant in microseconds of the part's own time base (DESIGN CHOICE, log entry 2). It is an
integer because an implied anchor may lie before the model's time 0 (R17). -/
abbrev Instant := Int

/-- One value for each of the grid contacts G0 to G3. -/
structure Quad (α : Type) where
  g0 : α
  g1 : α
  g2 : α
  g3 : α
  deriving DecidableEq, Repr

end Sys2Proof
end

