-- ==== Sys2Proof/Syntax.lean ====
section
/-! DEFINITION. The commands of the SL3210: one constructor per row of spec/opcode_table.json, with its
operands. `dt` is the time in microseconds since the command before it (log entry 2); every command has it. -/

namespace Sys2Proof

/-- A grid signal contact (R81). -/
inductive GridLine where
  | g0 | g1 | g2 | g3
  deriving DecidableEq, Repr

/-- The strap levels as they stand at the end of a WRITE REQUEST; only a START taken reads them (R21, R23). -/
structure Straps where
  /-- SN0 to SN4, SN0 the least significant. -/
  number : BitVec 5
  /-- SIGS. -/
  signal : Bool
  deriving DecidableEq, Repr

/-- The transactions that a selector names (R153). -/
inductive Transaction where
  | writeRequest | readResponse | readFlags
  deriving DecidableEq, Repr

/-- The two states of the depot line (R1). -/
inductive Level where
  | dominant | recessive
  deriving DecidableEq, Repr

/-- A transmission that has ended on the depot line (R1, R2). -/
structure Reception where
  /-- The line's level in each bit time, as the receiver samples it, from the first start bit on to the last stop
  bit or, where that was dominant, to the last dominant level; the recessive character time that ends the
  transmission follows. -/
  levels : List Level
  deriving DecidableEq, Repr

/-- The order in which notices of different blocks at one allocation point reach the queue, which the spec
leaves open (R173): each number is a position in the list of the Peer Table's, the Window Controller's and
the Grant Engine's notices (in that order, R53, R96, R128) at which the block's notice is put in. -/
structure Arrival where
  floorReached : Nat
  isolation : Nat
  lineErrors : Nat
  deriving DecidableEq, Repr

inductive Instr where
  /-- POWER_ON (R21). -/
  | powerOn (dt : Nat)
  /-- RESET_ASSERT (R21). -/
  | resetAssert (dt : Nat)
  /-- RESET_RELEASE (R21). -/
  | resetRelease (dt : Nat)
  /-- IGNORED_TRANSACTION (R153): its selector and the whole bytes clocked after it. -/
  | ignoredTransaction (dt : Nat) (selector : Byte) (clocked : Nat)
  /-- WRITE_REQUEST (R155): every whole byte on SDI after the selector. -/
  | writeRequest (dt : Nat) (straps : Straps) (bytes : List Byte)
  /-- READ_RESPONSE (R158): whole bytes clocked after the selector. -/
  | readResponse (dt : Nat) (clocked : Nat)
  /-- READ_FLAGS (R159): whole bytes clocked after the selector. -/
  | readFlags (dt : Nat) (clocked : Nat)
  /-- START (R23): the length byte and the field bytes received. -/
  | start (dt : Nat) (straps : Straps) (len : Byte) (fields : List Byte)
  /-- PROFILE (R100). -/
  | profile (dt : Nat) (len : Byte) (fields : List Byte)
  /-- READING (R101). -/
  | reading (dt : Nat) (len : Byte) (fields : List Byte)
  /-- AVAIL_AVAILABLE (R36): an AVAIL whose first field byte is 0; `extra` holds any bytes after it. -/
  | availAvailable (dt : Nat) (len : Byte) (extra : List Byte)
  /-- AVAIL_WITHDRAWN (R36): an AVAIL whose first field byte is 1; `extra` holds any bytes after it. -/
  | availWithdrawn (dt : Nat) (len : Byte) (extra : List Byte)
  /-- TAKE_NOTICE (R167). -/
  | takeNotice (dt : Nat) (len : Byte) (fields : List Byte)
  /-- PEER (R168). -/
  | peer (dt : Nat) (len : Byte) (fields : List Byte)
  /-- STATUS (R169). -/
  | status (dt : Nat) (len : Byte) (fields : List Byte)
  /-- LEAVE (R38). -/
  | leave (dt : Nat) (len : Byte) (fields : List Byte)
  /-- RESTART (R42). -/
  | restart (dt : Nat) (len : Byte) (fields : List Byte)
  /-- TRANSMISSION_END (R2). `grantFirst` is the order, left open, of GRANT_CHANGED and
  DUPLICATE_NUMBER where the transmission brings the station into FAULTED (log entry 9). -/
  | transmissionEnd (dt : Nat) (reception : Reception) (grantFirst : Bool)
  /-- ROUND_TIMER_EXPIRY (R14), with the line idle or busy at the expiry instant. -/
  | roundTimerExpiry (dt : Nat) (lineIdle : Bool)
  /-- OWN_SLOT_OPENING (R65), with the line idle or busy at that instant. -/
  | ownSlotOpening (dt : Nat) (lineIdle : Bool)
  /-- ALLOCATION_POINT (R61). -/
  | allocationPoint (dt : Nat) (order : Arrival)
  /-- RUN_COMPLETION (R131). -/
  | runCompletion (dt : Nat)
  /-- FRAME_START_DEFERRED (R10). -/
  | frameStartDeferred (dt : Nat)
  /-- SLOT_START_DEADLINE (R10). -/
  | slotStartDeadline (dt : Nat)
  /-- FRAME_SENT (R10). -/
  | frameSent (dt : Nat)
  /-- READBACK_MISMATCH (R11), with the order of notices as in TRANSMISSION_END. -/
  | readbackMismatch (dt : Nat) (grantFirst : Bool)
  /-- PLUG_FALL (R33). -/
  | plugFall (dt : Nat)
  /-- PLUG_RISE (R33). -/
  | plugRise (dt : Nat)
  /-- STOP_ACTIVE (R34). -/
  | stopActive (dt : Nat)
  /-- STOP_RELEASE (R34). -/
  | stopRelease (dt : Nat)
  /-- GRID_INPUT_CHANGE (R81): the contact and its new filtered level (true for high). -/
  | gridInputChange (dt : Nat) (line : GridLine) (level : Bool)
  /-- READING_LAPSE (R110). -/
  | readingLapse (dt : Nat)
  /-- LINE_IDLE_AFTER_START (R19). -/
  | lineIdleAfterStart (dt : Nat)
  /-- POWER_LOSS (R170). -/
  | powerLoss (dt : Nat)
  /-- STAGE_PERIOD_START (R146). -/
  | stagePeriodStart (dt : Nat)
  deriving DecidableEq, Repr

end Sys2Proof
end

