-- ==== Sys2Proof/Decode.lean ====
section
/-! DEFINITION. The selectors of the post link, and the commands that a word of the table's bits spells. No row of
spec/opcode_table.json gives bits: the part is commanded by transactions, transmissions and pins, not by words. -/

namespace Sys2Proof

/-- R153: the transaction a selector names: 57h WRITE REQUEST, 52h READ RESPONSE, 46h READ FLAGS, and no other. -/
def transactionOf (selector : Byte) : Option Transaction :=
  match selector.toNat with
  | 0x57 => some .writeRequest
  | 0x52 => some .readResponse
  | 0x46 => some .readFlags
  | _ => none

/-- No row gives bits, so no word spells a command. -/
def decodeTableWord (_nbits _w : Nat) : Option Instr := none

end Sys2Proof
end

