-- ==== Sys2Proof/Config.lean ====
section
/-! DEFINITION. What is fixed for every SL3210: the times of the round and of the line, in microseconds, and
the bytes the spec leaves open. -/

namespace Sys2Proof.Config

/-- Microseconds of n milliseconds. -/
def ms (n : Nat) : Nat := 1000 * n

/-- Microseconds of one second. -/
def second : Nat := 1000000

/-- Microseconds of one day: the depot clock carries no date (R79). -/
def day : Nat := 86400 * second

/-- Slot k opens at 40 + 50·k ms after the anchor (01, The Round). -/
def slotOpening (k : Nat) : Nat := ms (40 + 50 * k)

/-- The round timer of station n expires at 2,000 + n ms after the anchor (R13). -/
def timerExpiry (n : Nat) : Nat := ms (2000 + n)

/-- The allocation point, 1,660 ms after the anchor (R13). -/
def allocationInstant : Nat := ms 1660

/-- A run completes at most 100 ms after its allocation point (R123). -/
def runLimit : Nat := ms 100

/-- Marks heard from 1,900 ms after the anchor on are honoured (R15). -/
def markGuard : Nat := ms 1900

/-- A frame starts within the first 5 ms of its slot or not at all (R10). -/
def startLimit : Nat := ms 5

/-- A frame whose implied anchor differs by 8 ms or less is in step (R17). -/
def stepTolerance : Nat := ms 8

/-- A frame whose implied anchor differs by 200 ms or more is out of step (R17). -/
def outOfStep : Nat := ms 200

/-- Microseconds of n bit times at 19,200 bit/s, 625/12 µs each (R1), to the nearest whole one (log entry 2). -/
def bitTimes (n : Nat) : Nat := (625 * n + 6) / 12

/-- Microseconds of n characters of ten bit times, back to back (R1). -/
def charTimes (n : Nat) : Nat := bitTimes (10 * n)

/-- An opening mark is three characters, 1,562.5 µs (R1). -/
def markDuration : Nat := charTimes 3

/-- A period of the STAGE line: the pulse frequency is 1 kHz (R145). -/
def stagePeriod : Nat := ms 1

/-- The reading age stays at 65,535 s (R99). -/
def maxAge : Nat := 65535 * second

/-- The bytes of SDO that the spec does not state: after the selector of a WRITE REQUEST, and beyond the
flags byte of a READ FLAGS (R153, R159): free values (log entry 8). -/
opaque sdoUnstated : Nat → Byte

end Sys2Proof.Config
end

