-- ==== Sys2Proof/Machine/Levels.lean ====
section
/-! DEFINITION. Characters as levels of the depot line, both ways: what a sender drives and what a receiver
gathers (R1). -/

namespace Sys2Proof

/-! ### Sending -/

/-- A 0 bit is dominant, a 1 bit recessive (R1). -/
def bitLevel (b : Bool) : Level := if b then .recessive else .dominant

/-- A character: one dominant start bit, eight data bits with the least significant first, one recessive stop
bit (R1). -/
def charLevels (c : Byte) : List Level :=
  .dominant :: ((List.range 8).map fun i => bitLevel (c.getLsbD i)) ++ [.recessive]

/-- Characters back to back, without gaps (R1). -/
def transmission (cs : List Byte) : Reception := { levels := cs.flatMap charLevels }

/-- The level of the line under the levels driven on it: recessive where no station drives, dominant where any
single one does (R1). -/
def lineLevel (driven : List Level) : Level := if .dominant ∈ driven then .dominant else .recessive

/-! ### Receiving -/

/-- Where a receiver stands in a transmission. -/
inductive CharPhase where
  /-- After a stop bit, with the recessive bit times seen since. -/
  | between (recessive : Nat)
  /-- In a character, with the data bits sampled so far. -/
  | inChar (bits : List Level)
  /-- After a stop bit sampled dominant, while the level stays dominant. -/
  | held
  deriving DecidableEq, Repr

/-- What a receiver has gathered of a transmission. -/
structure Gathered where
  phase : CharPhase
  chars : List Byte
  fault : Bool
  /-- The line was recessive for one character time: the transmission has ended (R1). -/
  ended : Bool
  deriving DecidableEq, Repr

def Gathered.start : Gathered := { phase := .between 0, chars := [], fault := false, ended := false }

/-- A character from the levels of its data bits, the least significant first (R1). -/
def byteOfLevels (bits : List Level) : Byte :=
  BitVec.ofNat 8 (bits.foldr (fun l n => 2 * n + (match l with | .recessive => 1 | .dominant => 0)) 0)

/-- A character ends with its stop bit; one sampled dominant is a framing fault (R1). The faulty character counts as
one, and the next start bit is the next edge after the line has been recessive again (DESIGN CHOICE, log entry 23). -/
def Gathered.stopBit (g : Gathered) (bits : List Level) : Level → Gathered
  | .recessive => { g with phase := .between 0, chars := g.chars ++ [byteOfLevels bits] }
  | .dominant => { g with phase := .held, chars := g.chars ++ [byteOfLevels bits], fault := true }

/-- One more level: a dominant one after a stop bit is a start bit, and eight data bits and the stop bit follow it. A
dominant level longer than a character time covers a stop bit, so it is a framing fault too (R1). -/
def Gathered.sample (g : Gathered) (l : Level) : Gathered :=
  match g.phase, l with
  | .between _, .dominant => { g with phase := .inChar [] }
  | .between n, .recessive => { g with phase := .between (n + 1), ended := g.ended || decide (n + 1 = 10) }
  | .held, .dominant => g
  | .held, .recessive => { g with phase := .between 1 }
  | .inChar bits, l =>
    if bits.length < 8 then { g with phase := .inChar (bits ++ [l]) } else g.stopBit bits l

def Reception.gathered (r : Reception) : Gathered := r.levels.foldl Gathered.sample .start

/-- Its characters in order. -/
def Reception.chars (r : Reception) : List Byte := r.gathered.chars

/-- Some character of it had a framing fault. -/
def Reception.framingFault (r : Reception) : Bool := r.gathered.fault

/-- Microseconds from its start instant (the leading edge of its first start bit) to its end: one recessive
character time after its levels (R1). -/
def Reception.lasted (r : Reception) : Nat := Config.bitTimes (r.levels.length + 10)

/-- The levels of one transmission: from a start bit on, without an idle character time, up to a stop bit or, where
that was dominant, to the last dominant level (R1). -/
def Reception.wellFormed (r : Reception) : Bool :=
  decide (r.levels.head? = some .dominant) && !r.gathered.ended
  && decide (r.gathered.phase = .between 0 ∨ r.gathered.phase = .held)

end Sys2Proof
end

