-- ==== Sys2Proof/Machine/State.lean ====
section
/-! DEFINITION. Everything the spec gives the SL3210 to hold, block by block, and the state right after reset. -/

namespace Sys2Proof.Machine

/-! ### Names of the spec -/

/-- Station states (R21). -/
inductive StationState where
  | offline | joining | member | holding | leaving | faulted
  deriving DecidableEq, Repr

/-- The station states a frame can carry (R3). -/
inductive AnnouncedState where
  | member | holding | leaving
  deriving DecidableEq, Repr

/-- The hold cause set: a mark for each cause (R3, R21). -/
structure HoldCauses where
  noBus : Bool
  noProfile : Bool
  noReading : Bool
  lapse : Bool
  stop : Bool
  withdrawn : Bool
  deriving DecidableEq, Repr

/-- Window states CLOSED, OPEN and WINDING (R86). -/
inductive WindowState where
  | closed | opened | winding
  deriving DecidableEq, Repr

/-- Latest rider kinds (R44). -/
inductive RiderKind where
  | none | roster | profile | clock
  deriving DecidableEq, Repr

/-- Why an entry is ABSENT (R44). -/
inductive AbsentReason where
  | never | silent | left
  deriving DecidableEq, Repr

/-- Presence; the absent reason is there exactly while the entry is ABSENT (R44). -/
inductive Presence where
  | fresh | stale
  | absent (reason : AbsentReason)
  deriving DecidableEq, Repr

/-- Last run status (R118). -/
inductive RunStatus where
  | none | inFlight | completed | aborted | abandoned
  deriving DecidableEq, Repr

/-- What DUPLICATE_NUMBER rests on (R27, R28). -/
inductive Evidence where
  | heard | readback
  deriving DecidableEq, Repr

/-! ### Frames (R3) -/

/-- The core of a frame beside its station number; the LEAVE flag is set exactly in LEAVING (R7). -/
structure FrameCore where
  state : AnnouncedState
  causes : HoldCauses
  offerPower : Nat
  offerEnergy : Nat
  /-- Announced applied export, kW. -/
  announced : Nat
  digest : Word16
  digestCurrent : Bool
  deriving DecidableEq, Repr

/-- The signal part, and the window items it carries (R3, R44). -/
structure SignalPart where
  state : WindowState
  sequence : Nat
  budget : Nat
  deriving DecidableEq, Repr

/-- The rider of a frame (R3). -/
inductive Rider where
  | none
  | roster (heard : StationSet)
  | profile (departure floor : Nat)
  | clock (minute second : Nat)
  deriving DecidableEq, Repr

/-- One station's announcement (R3). -/
structure Frame where
  station : Nat
  core : FrameCore
  signal : Option SignalPart
  rider : Rider
  deriving DecidableEq, Repr

/-! ### The START configuration (R171) -/

/-- What a grid line must show (R82). -/
inductive LineCondition where
  | levelHigh | levelLow | rising | falling | either
  deriving DecidableEq, Repr

/-- A grid line's specification (R82). -/
structure GridSpec where
  care : Bool
  condition : LineCondition
  deriving DecidableEq, Repr

/-- Pattern modes (R83). -/
inductive PatternMode where
  | none | all | any | ranked
  deriving DecidableEq, Repr

/-- Kinds of a rider plan entry (R64). -/
inductive PlanKind where
  | roster | profile | clock
  deriving DecidableEq, Repr

/-- A rider plan entry as START gives it (R70). -/
structure PlanEntry where
  kind : PlanKind
  period : Nat
  offset : Nat
  deriving DecidableEq, Repr

/-- The configuration START latches (R161, R171), the notice enable set with it (R172): bit c - 1 for the kind
of code c. -/
structure Configuration where
  depotLimit : Nat
  stageRating : Nat
  rampStep : Nat
  lapseTime : Nat
  windowEnd : Nat
  grid : Quad GridSpec
  mode : PatternMode
  baseTarget : Nat
  levels : Quad Nat
  clockEnabled : Bool
  clockStart : Nat
  clockEnd : Nat
  maxRounds : Nat
  windDown : Nat
  noticeEnable : BitVec 17
  plan : List PlanEntry
  deriving DecidableEq, Repr

/-! ### Line Interface and Round Timer -/

/-- The receiver: off in OFFLINE; after START it waits for the line to be idle once (R2, R19). -/
inductive Receiver where
  | off
  | awaitingIdle
  | on (since : Instant)
  deriving DecidableEq, Repr

/-- What the transmitter is doing (R10, R11, R14). -/
inductive Transmitter where
  | silent
  /-- A frame handed while the line was busy, with the own slot opening it waits from: the opening as it was raised,
  which neither a re-anchor nor a round opening alters (DESIGN CHOICE, log entry 21). -/
  | waiting (opening : Instant) (frame : Frame)
  /-- A frame on the line, with its start instant: its length fixes its end (R1, R4). -/
  | sending (start : Instant) (frame : Frame)
  /-- An opening mark, with its start instant; it runs out by itself (R1). -/
  | mark (start : Instant)
  deriving DecidableEq, Repr

structure LineInterface where
  receiver : Receiver
  /-- Corrupt count of the current round (R9). -/
  corrupt : Nat
  /-- Last round's corrupt count (R9). -/
  lastCorrupt : Nat
  readbackFailures : Nat
  transmitter : Transmitter
  /-- Where the latest own transmission that the transmitter no longer shows ended or was stopped: a transmission
  that started no later overlaps it and is not classified (R2, R11). -/
  ownUntil : Option Instant
  deriving DecidableEq, Repr

/-- What the Round Timer will report of the current round when the next one opens (R14, R135). -/
inductive RoundOutcome where
  | noAllocation | noRun | running | completed | aborted
  deriving DecidableEq, Repr

/-- The Round Timer (R13); the timer runs exactly while an anchor is held. -/
structure RoundTimer where
  anchor : Option Instant
  roundCount : Nat
  fixed : Bool
  /-- The own slot opening of this round is still to be raised. -/
  slotPending : Bool
  /-- The allocation point of this round is still to be raised. -/
  allocationPending : Bool
  /-- Allocation points raised since START, counted to 2 (R26). -/
  allocations : Nat
  outcome : RoundOutcome
  runMisses : Nat
  deriving DecidableEq, Repr

/-! ### Station Control -/

structure StationControl where
  state : StationState
  causes : HoldCauses
  number : Option Nat
  signalStrap : Option Bool
  configuration : Option Configuration
  peerHeard : Bool
  isolated : Bool
  leaveAttempts : Nat
  withdrawalPending : Bool
  /-- The model's own (log entry 11): an own frame has been built since the latest AVAIL(withdrawn) was taken, so
  the outcome now awaited is that of a frame built after it (R37, R164). -/
  announcementBuilt : Bool
  deriving DecidableEq, Repr

/-! ### Peer Table -/

structure Roster where
  heard : StationSet
  age : Nat
  deriving DecidableEq, Repr

structure PeerProfile where
  departure : Nat
  floor : Nat
  age : Nat
  deriving DecidableEq, Repr

/-- One entry of the Peer Table (R44). -/
structure PeerEntry where
  presence : Presence
  missCount : Nat
  frameSince : Bool
  core : Option FrameCore
  riderKind : RiderKind
  signal : Option SignalPart
  roster : Option Roster
  profile : Option PeerProfile
  lastHeard : Option Nat
  /-- The presence after the latest ageing (R56, R58). -/
  standing : Presence
  /-- A LEAVE frame from the peer has been delivered since the latest ageing (R56, R58). -/
  leftSince : Bool
  deriving DecidableEq, Repr

/-- An entry after power-on (R44). -/
def PeerEntry.reset : PeerEntry :=
  { presence := .absent .never, missCount := 0, frameSince := false, core := none, riderKind := .none,
    signal := none, roster := none, profile := none, lastHeard := none,
    standing := .absent .never, leftSince := false }

structure PeerTable where
  /-- 32 entries, by station number (R44). -/
  entries : List PeerEntry
  received : StationSet
  heard : StationSet
  liveCount : Nat
  census : Nat
  authority : Option Nat
  deriving DecidableEq, Repr

/-! ### Frame Builder -/

/-- A rider plan entry with its owed mark (R64). -/
structure RiderEntry where
  entry : PlanEntry
  owed : Bool
  deriving DecidableEq, Repr

/-! ### Window Controller -/

/-- A window sample: the four levels (true for high) and the recorded pattern match (R81). -/
structure Sample where
  levels : Quad Bool
  matched : Bool
  deriving DecidableEq, Repr

/-- The own window (R86). -/
structure OwnWindow where
  state : WindowState
  sequence : Nat
  budget : Nat
  /-- Max-duration counter. -/
  maxDuration : Nat
  exhausted : Bool
  /-- Wind-down counter. -/
  windDown : Nat
  /-- Wind-down base B0. -/
  base : Nat
  heldTarget : Nat
  deriving DecidableEq, Repr

structure WindowController where
  /-- The depot clock, in microseconds of the day; minute and second are views of it (R79). -/
  clock : Nat
  current : Option Sample
  previous : Option Sample
  own : OwnWindow
  /-- The adopted window (R94). -/
  adopted : SignalPart
  deriving DecidableEq, Repr

/-! ### Readiness Unit -/

/-- The bus profile (R99). -/
structure BusProfile where
  /-- Usable capacity C, kWh. -/
  capacity : Nat
  /-- Departure minute Dm. -/
  departure : Nat
  /-- Route energy need N, kWh. -/
  need : Nat
  /-- Cold margin m, percent. -/
  coldMargin : Nat
  /-- Hard floor f, percent of C. -/
  hardFloor : Nat
  /-- Charge power limit Pc, kW. -/
  chargeLimit : Nat
  deriving DecidableEq, Repr

/-- The latest reading with its age in microseconds and its export tally in kW·µs (R99, R102). -/
structure HeldReading where
  /-- State of charge s, tenths of a percent. -/
  charge : Nat
  /-- Pack temperature t, °C. -/
  temperature : Int
  /-- Discharge limit Pb, kW. -/
  dischargeLimit : Nat
  /-- Measured export Pm, kW. -/
  measured : Nat
  age : Nat
  tally : Nat
  deriving DecidableEq, Repr

structure ReadinessUnit where
  profile : Option BusProfile
  reading : Option HeldReading
  lapseReported : Bool
  estimate : Option Nat
  floor : Option Nat
  offerEnergy : Nat
  offerPower : Nat
  floorHold : Bool
  /-- Floor hold was set after the held round view was frozen (R109). -/
  holdAfterView : Bool
  deviationCount : Nat
  deviationFlag : Bool
  deriving DecidableEq, Repr

/-! ### Grant Engine -/

/-- A peer record of a round view (R119). -/
structure PeerRecord where
  number : Nat
  received : Bool
  core : FrameCore
  departure : Option Nat
  deriving DecidableEq, Repr

/-- Offer power and offer energy as a frame carried them (R120). -/
structure Offer where
  power : Nat
  energy : Nat
  deriving DecidableEq, Repr

/-- A frozen round view (R119, R120). -/
structure RoundView where
  ownNumber : Nat
  ownState : StationState
  ownOffer : Offer
  ownDeparture : Option Nat
  /-- The offer of the latest own frame SENT in the interval, if one was. -/
  sent : Option Offer
  peers : List PeerRecord
  received : StationSet
  heard : StationSet
  rosters : List StationSet
  liveCount : Nat
  census : Nat
  budget : Nat
  /-- The round count at the allocation point: the run's round. -/
  round : Nat
  /-- The instant of the freeze. -/
  frozenAt : Instant
  deriving DecidableEq, Repr

structure GrantEngine where
  view : Option RoundView
  ownGrant : Nat
  digest : Word16
  digestRound : Option Nat
  splitSeen : Bool
  runStatus : RunStatus
  /-- The offer of the latest own frame SENT since the latest allocation point (R120). -/
  sentOffer : Option Offer
  deriving DecidableEq, Repr

/-! ### Setpoint Unit -/

structure SetpointUnit where
  applied : Nat
  announced : Nat
  /-- STAGE duty, per mille (R145). -/
  duty : Nat
  permit : Bool
  /-- The duty the STAGE line shows in the current period: a rise waits for the next one (R146). -/
  lineDuty : Nat
  /-- The start of the latest STAGE period begun, absent until the first (R145, log entry 16). -/
  periodStart : Option Instant
  deriving DecidableEq, Repr

/-! ### Post Link -/

/-- A request record: kind byte, length byte, field bytes (R155, R171). -/
structure RequestRecord where
  kind : Byte
  len : Byte
  fields : List Byte
  deriving DecidableEq, Repr

/-- Result codes (R171). -/
inductive ResultCode where
  | ok | unknown | length | state | range | duplicate | noBus | faulted | empty
  deriving DecidableEq, Repr

/-- A response record; its length byte is the number of its fields (R171). -/
structure Response where
  kind : Byte
  result : ResultCode
  fields : List Byte
  deriving DecidableEq, Repr

structure PostLink where
  request : Option RequestRecord
  response : Option Response
  busy : Bool
  done : Bool
  overrun : Bool
  /-- The IRQ output: true while asserted, driven low (R160). -/
  irq : Bool
  /-- The bytes SDO carried in the latest transaction, the selector's first (R153). -/
  sdo : List Byte
  deriving DecidableEq, Repr

/-! ### Notice Queue -/

/-- The seventeen kinds of notice (R178). -/
inductive NoticeKind where
  | windowOpened | windowClosed | targetChanged | authorityChanged | grantChanged | floorReached
  | readingLapsed | stageDeviation | stopChanged | isolated | lineRestored | viewSplit
  | duplicateNumber | runAborted | clockStepped | lineErrors | peerChanged
  deriving DecidableEq, Repr

/-- The value of a notice in the range of its kind (10, Kinds). -/
inductive NoticeValue where
  | number (n : Nat)
  | authority (station : Option Nat)
  | evidence (e : Evidence)
  | presence (p : Presence)
  | stop (active : Bool)
  deriving DecidableEq, Repr

/-- A notice as a block makes it. -/
structure Notice where
  kind : NoticeKind
  subject : Option Nat
  value : NoticeValue
  deriving DecidableEq, Repr

/-- An entry of the Notice Queue (R172). -/
structure NoticeEntry where
  kind : NoticeKind
  subject : Option Nat
  value : NoticeValue
  repeats : Nat
  firstRound : Nat
  lastRound : Nat
  deriving DecidableEq, Repr

/-! ### Inputs -/

/-- The inputs as their filters show them (R32), and the supply. -/
structure Inputs where
  powered : Bool
  /-- RESET is held low (R21). -/
  resetLow : Bool
  /-- PLUG is high. -/
  plug : Bool
  /-- STOP is active. -/
  stop : Bool
  /-- G0 to G3, true for high. -/
  grid : Quad Bool
  deriving DecidableEq, Repr

/-! ### The whole -/

structure State where
  inputs : Inputs
  line : LineInterface
  timer : RoundTimer
  control : StationControl
  peers : PeerTable
  /-- The rider plan with its owed marks, absent while no configuration is latched (R64). -/
  plan : Option (List RiderEntry)
  window : WindowController
  readiness : ReadinessUnit
  grant : GrantEngine
  setpoint : SetpointUnit
  link : PostLink
  /-- The Notice Queue, oldest first (R172). -/
  notices : List NoticeEntry
  /-- The model's own: microseconds since the reset state (log entry 2). -/
  now : Instant
  /-- The model's own: how many free bytes have been drawn (log entry 8). -/
  freeIndex : Nat
  /-- The commands that wait, oldest first. -/
  pending : List Instr
  deriving DecidableEq, Repr

/-- No hold cause (R21). -/
def HoldCauses.empty : HoldCauses := ⟨false, false, false, false, false, false⟩

def LineInterface.reset : LineInterface :=
  { receiver := .off, corrupt := 0, lastCorrupt := 0, readbackFailures := 0, transmitter := .silent,
    ownUntil := none }

def RoundTimer.reset : RoundTimer :=
  { anchor := none, roundCount := 0, fixed := false, slotPending := false, allocationPending := false,
    allocations := 0, outcome := .noAllocation, runMisses := 0 }

def StationControl.reset : StationControl :=
  { state := .offline, causes := .empty, number := none, signalStrap := none, configuration := none,
    peerHeard := false, isolated := false, leaveAttempts := 0, withdrawalPending := false,
    announcementBuilt := false }

def PeerTable.reset : PeerTable :=
  { entries := List.replicate 32 .reset, received := 0, heard := 0, liveCount := 0, census := 0,
    authority := none }

def OwnWindow.reset : OwnWindow :=
  { state := .closed, sequence := 0, budget := 0, maxDuration := 0, exhausted := false, windDown := 0,
    base := 0, heldTarget := 0 }

def WindowController.reset : WindowController :=
  { clock := 0, current := none, previous := none, own := .reset, adopted := ⟨.closed, 0, 0⟩ }

def ReadinessUnit.reset : ReadinessUnit :=
  { profile := none, reading := none, lapseReported := false, estimate := none, floor := none,
    offerEnergy := 0, offerPower := 0, floorHold := false, holdAfterView := false, deviationCount := 0,
    deviationFlag := false }

def GrantEngine.reset : GrantEngine :=
  { view := none, ownGrant := 0, digest := 0, digestRound := none, splitSeen := false, runStatus := .none,
    sentOffer := none }

def SetpointUnit.reset : SetpointUnit :=
  { applied := 0, announced := 0, duty := 0, permit := false, lineDuty := 0, periodStart := none }

def PostLink.reset : PostLink :=
  { request := none, response := none, busy := false, done := false, overrun := false, irq := false,
    sdo := [] }

/-- The inputs the model starts with: supply on, RESET released, PLUG low, STOP released, G0 to G3 low
(DESIGN CHOICE, log entry 5). -/
def Inputs.reset : Inputs :=
  { powered := true, resetLow := false, plug := false, stop := false, grid := ⟨false, false, false, false⟩ }

/-- The part right after power-on and RESET's release (R20, R21, R44, R62, R64, R98, R99, R118, R139, R154,
R172). -/
def State.reset : State :=
  { inputs := .reset, line := .reset, timer := .reset, control := .reset, peers := .reset, plan := none,
    window := .reset, readiness := .reset, grant := .reset, setpoint := .reset, link := .reset,
    notices := [], now := 0, freeIndex := 0, pending := [] }

/-- Why the machine would stop with a fault. The spec gives the part no such stop: FAULTED is a station
state and a refused request has a result code, so there is no reason here and no meaning raises one (safe:
nothing is hidden behind a fault). -/
inductive Fault where
  deriving DecidableEq, Repr

/-- Why a command has no meaning. -/
inductive Refusal where
  /-- Raised by `exec`'s arm of a command that has no meaning yet; safe (nothing is claimed of it). No arm
  raises it now. -/
  | notModelled (mnemonic : String)
  deriving DecidableEq, Repr

end Sys2Proof.Machine
end

