-- ==== Sys2Proof/Machine/Readiness.lean ====
section
/-! DEFINITION. The Readiness Unit's figures: energy estimate, readiness floor, offer, stage deviation (06). -/

namespace Sys2Proof.Machine

/-- ceil(a / b) for b above 0 (00, Numbers and Rounding). -/
def ceilDiv (a b : Nat) : Nat := (a + b - 1) / b

/-- Microseconds times kW in one kWh: 3,600 s. -/
def tallyPerKwh : Nat := 3600 * Config.second

/-- R104: floor(C × s / 1000) − ceil(T / 3600), and 0 where that is negative. -/
def energyEstimate (p : BusProfile) (r : HeldReading) : Nat :=
  p.capacity * r.charge / 1000 - ceilDiv r.tally tallyPerKwh

/-- Need, R105. -/
def routeNeed (p : BusProfile) : Nat := ceilDiv (p.need * (100 + p.coldMargin)) 100

/-- Refill minutes, R105: (Dm − latest window end minute) mod 1440. -/
def refillMinutes (p : BusProfile) (windowEnd : Nat) : Nat :=
  (((p.departure : Int) - (windowEnd : Int)) % 1440).toNat

/-- Refill credit, R105. -/
def refillCredit (p : BusProfile) (windowEnd : Nat) : Nat :=
  p.chargeLimit * refillMinutes p windowEnd * 9 / 600

/-- R105: the larger of the hard floor and need less credit, never more than C. A negative difference is
never the larger one, so the truncated difference serves. -/
def readinessFloor (p : BusProfile) (windowEnd : Nat) : Nat :=
  min p.capacity
    (max (ceilDiv (p.capacity * p.hardFloor) 100) (routeNeed p - refillCredit p windowEnd))

/-- R106: estimate less floor where both are present and the difference is above 0, else 0. -/
def offerEnergyOf (estimate floor : Option Nat) : Nat :=
  match estimate, floor with
  | some e, some f => e - f
  | _, _ => 0

/-- The temperature-factored value, R107. -/
def temperatureFactored (t : Int) (base : Nat) : Nat :=
  if t ≤ -16 then 0
  else if t ≤ -1 then base / 2
  else if t ≤ 55 then base
  else 0

/-- R107: 0 without a reading, with offer energy 0 or with any hold cause. -/
def offerPowerOf (reading : Option HeldReading) (stageRating energy : Nat) (causes : HoldCauses) : Nat :=
  match reading with
  | none => 0
  | some r =>
    if energy = 0 ∨ causes ≠ .empty then 0
    else temperatureFactored r.temperature (min r.dischargeLimit stageRating)

/-- R111: the reading deviates when |Pm − A| is greater than the larger of 3 and floor(A / 10). -/
def deviates (measured applied : Nat) : Bool :=
  decide (max 3 (applied / 10) < (measured - applied) + (applied - measured))

/-- R111: deviation count and flag after a reading. -/
def deviationStep (count : Nat) (flag dev : Bool) : Nat × Bool :=
  if flag = dev then (0, flag)
  else if 3 ≤ count + 1 then (0, !flag)
  else (count + 1, flag)

/-- R148: applied export, or the measured export where the deviation flag is set and it is greater. -/
def announcedFor (r : ReadinessUnit) (applied : Nat) : Nat :=
  match r.reading with
  | some h => if r.deviationFlag = true ∧ applied < h.measured then h.measured else applied
  | none => applied

/-- The computation of R103: the four figures together. -/
def ReadinessUnit.computed (r : ReadinessUnit) (causes : HoldCauses) (cfg : Option Configuration) :
    ReadinessUnit :=
  let estimate :=
    match r.profile, r.reading with
    | some p, some h => some (energyEstimate p h)
    | _, _ => none
  let floor :=
    match r.profile, cfg with
    | some p, some c => some (readinessFloor p c.windowEnd)
    | _, _ => none
  let energy := offerEnergyOf estimate floor
  let rating := match cfg with | some c => c.stageRating | none => 0
  { r with
    estimate := estimate
    floor := floor
    offerEnergy := energy
    offerPower := offerPowerOf r.reading rating energy causes }

/-- R102: while a reading is held its age runs (staying at 65,535 s, R99) and its tally grows by applied export. -/
def ReadinessUnit.aged (r : ReadinessUnit) (dt applied : Nat) : ReadinessUnit :=
  { r with
    reading :=
      match r.reading with
      | some h => some { h with age := min Config.maxAge (h.age + dt), tally := h.tally + applied * dt }
      | none => none }

/-- R113: what a PLUG fall discards; the figures follow by the computation of R103. -/
def ReadinessUnit.discarded (r : ReadinessUnit) : ReadinessUnit :=
  { r with
    profile := none
    reading := none
    lapseReported := false
    floorHold := false
    holdAfterView := false
    deviationCount := 0
    deviationFlag := false }

end Sys2Proof.Machine
end

