-- ==== Sys2Proof/Machine/Ops.lean ====
section
/-! DEFINITION. The operations the commands share: time, notices, hold causes, applied export, completion of
requests, entry into FAULTED, and the values after a reset. -/

namespace Sys2Proof.Machine

/-! ### Numbers in records and frames -/

/-- One byte of a number. -/
def byte (n : Nat) : Byte := BitVec.ofNat 8 n

/-- Two bytes, the most significant first (R3, R153). -/
def be16 (n : Nat) : List Byte := [byte (n / 256), byte n]

/-- A flag as a byte. -/
def flagByte (b : Bool) : Byte := if b then 1 else 0

/-- The bits of a byte, the least significant first. -/
def bitsByte (bs : List Bool) : Byte :=
  byte (bs.foldr (fun b acc => acc * 2 + (if b then 1 else 0)) 0)

/-- Four bytes of a station set, station 31 in the most significant bit of the first (R3). -/
def setBytes (s : StationSet) : List Byte :=
  [byte (s.toNat / 2 ^ 24), byte (s.toNat / 2 ^ 16), byte (s.toNat / 2 ^ 8), byte s.toNat]

/-! ### Small readers -/

def HoldCauses.isEmpty (c : HoldCauses) : Bool := decide (c = .empty)

/-- Bits 0 to 5 of the hold cause character (R3). -/
def HoldCauses.bits (c : HoldCauses) : List Bool :=
  [c.noBus, c.noProfile, c.noReading, c.lapse, c.stop, c.withdrawn]

def quadGet {α : Type} (q : Quad α) : GridLine → α
  | .g0 => q.g0
  | .g1 => q.g1
  | .g2 => q.g2
  | .g3 => q.g3

def quadSet {α : Type} (q : Quad α) (l : GridLine) (a : α) : Quad α :=
  match l with
  | .g0 => { q with g0 := a }
  | .g1 => { q with g1 := a }
  | .g2 => { q with g2 := a }
  | .g3 => { q with g3 := a }

def Presence.isPresent : Presence → Bool
  | .fresh => true
  | .stale => true
  | .absent _ => false

/-- FRESH, STALE or ABSENT without the reason: what a change of presence is a change of (R53). -/
def Presence.sameKind : Presence → Presence → Bool
  | .fresh, .fresh => true
  | .stale, .stale => true
  | .absent _, .absent _ => true
  | _, _ => false

/-- The set of one station. -/
def stationBit (k : Nat) : StationSet := BitVec.ofNat 32 (2 ^ k)

/-- How many stations a set holds. -/
def setSize (s : StationSet) : Nat := ((List.range 32).filter fun k => s.getLsbD k).length

def PeerTable.entry (t : PeerTable) (k : Nat) : PeerEntry := t.entries.getD k .reset

/-- The own station number, where the station has one. -/
def State.number (s : State) : Nat := s.control.number.getD 0

/-- The part works: it has supply and RESET is not held low (R21, R170). -/
def State.running (s : State) : Bool := s.inputs.powered && !s.inputs.resetLow

/-- JOINING, MEMBER, HOLDING or LEAVING: the states in which causes move and inputs are watched (R31, R33). -/
def StationState.watches : StationState → Bool
  | .joining | .member | .holding | .leaving => true
  | .offline | .faulted => false

/-- JOINING, MEMBER or HOLDING: the states with allocation runs (R22). -/
def StationState.runs : StationState → Bool
  | .joining | .member | .holding => true
  | .offline | .leaving | .faulted => false

/-- MEMBER or HOLDING. -/
def StationState.joined : StationState → Bool
  | .member | .holding => true
  | .offline | .joining | .leaving | .faulted => false

/-! ### Time -/

/-- Time passes: the depot clock runs while the part works (R79), the reading ages and its tally grows
(R102). -/
def State.advance (dt : Nat) (s : State) : State :=
  if s.running then
    { s with
      now := s.now + dt
      window := { s.window with clock := (s.window.clock + dt) % Config.day }
      readiness := s.readiness.aged dt s.setpoint.applied }
  else { s with now := s.now + dt }

/-- The depot clock as it stood at an instant up to now: its reading less the time elapsed since (R74, R77). -/
def State.clockAt (s : State) (t : Instant) : Nat :=
  (((s.window.clock : Int) - (s.now - t)) % (Config.day : Int)).toNat

/-- Minute of day of a clock figure (R79). -/
def clockMinute (c : Nat) : Nat := c / (60 * Config.second)

/-- Second of a clock figure, the fraction dropped (R79). -/
def clockSecond (c : Nat) : Nat := c / Config.second % 60

/-- The clock figure of a minute and a second, fraction 0 (R79). -/
def clockOf (minute second : Nat) : Nat := (minute * 60 + second) * Config.second

/-- Milliseconds after an anchor. -/
def after (a : Instant) (d : Nat) : Instant := a + (d : Int)

/-! ### Notices (10) -/

/-- Code of a kind (R178); less one, its bit in the enable set. -/
def NoticeKind.code : NoticeKind → Nat
  | .windowOpened => 1
  | .windowClosed => 2
  | .targetChanged => 3
  | .authorityChanged => 4
  | .grantChanged => 5
  | .floorReached => 6
  | .readingLapsed => 7
  | .stageDeviation => 8
  | .stopChanged => 9
  | .isolated => 10
  | .lineRestored => 11
  | .viewSplit => 12
  | .duplicateNumber => 13
  | .runAborted => 14
  | .clockStepped => 15
  | .lineErrors => 16
  | .peerChanged => 17

/-- A configuration's enable set holds the kind (R171, R172). -/
def Configuration.enables (c : Configuration) (k : NoticeKind) : Bool := c.noticeEnable.getLsbD (k.code - 1)

/-- A kind is enabled; while no configuration is latched none is (R173). -/
def State.enabled (s : State) (k : NoticeKind) : Bool :=
  match s.control.configuration with
  | some c => c.enables k
  | none => false

/-- R174: a notice coalesces into the entry of its key, or forms a new one at the tail. -/
def foldNotice (round : Nat) (n : Notice) : List NoticeEntry → List NoticeEntry
  | [] => [{ kind := n.kind, subject := n.subject, value := n.value, repeats := 1,
             firstRound := round, lastRound := round }]
  | e :: es =>
    if e.kind = n.kind ∧ e.subject = n.subject then
      { e with value := n.value, repeats := min 255 (e.repeats + 1), lastRound := round } :: es
    else e :: foldNotice round n es

/-- R173: a notice of a disabled kind is dropped, one of an enabled kind is folded in at the round count. -/
def State.notice (n : Notice) (s : State) : State :=
  if s.enabled n.kind then { s with notices := foldNotice s.timer.roundCount n s.notices } else s

/-- Notices in their order. -/
def State.noticeAll (ns : List Notice) (s : State) : State := ns.foldl (fun s n => s.notice n) s

/-- A subjectless notice with a number (10, Kinds). -/
def numbered (k : NoticeKind) (n : Nat) : Notice := { kind := k, subject := none, value := .number n }

/-- PEER_CHANGED (R48, R49, R53). -/
def peerNotice (k : Nat) (p : Presence) : Notice :=
  { kind := .peerChanged, subject := some k, value := .presence p }

/-! ### Applied export (08) -/

/-- STAGE duty in per mille, floor(1000 × applied / stage rating); 0 while no rating is latched (R145). -/
def stageDuty (cfg : Option Configuration) (applied : Nat) : Nat :=
  match cfg with
  | some c => 1000 * applied / c.stageRating
  | none => 0

/-- Sets applied export, and with it the duty (R145), the line (a fall at once, a rise at the next period,
R146), PERMIT (R147) and the announced figure (R148). -/
def State.setApplied (a : Nat) (s : State) : State :=
  let duty := stageDuty s.control.configuration a
  { s with
    setpoint :=
      { s.setpoint with
        applied := a
        announced := announcedFor s.readiness a
        duty := duty
        permit := decide (0 < a)
        lineDuty := min s.setpoint.lineDuty duty } }

/-- An immediate zeroing (R143). -/
def State.zeroExport (s : State) : State := s.setApplied 0

/-- R148: the announced figure set anew, applied export as it stands. -/
def State.refreshAnnounced (s : State) : State :=
  { s with setpoint := { s.setpoint with announced := announcedFor s.readiness s.setpoint.applied } }

/-- The level of the STAGE line: high for the duty's thousandths from the start of each period (a period is
1,000 µs, so a thousandth is one microsecond), low throughout at 0, high throughout at 1000 (R145, R146). Low while no
period has begun: the duty in effect is 0 until then (log entry 16). -/
def State.stageHigh (s : State) : Bool :=
  match s.setpoint.periodStart with
  | some p => decide ((s.now - p) % (Config.stagePeriod : Int) < (s.setpoint.lineDuty : Int))
  | none => false

/-! ### Offer and hold causes -/

/-- The computation of R103. -/
def State.computeOffer (s : State) : State :=
  { s with readiness := s.readiness.computed s.control.causes s.control.configuration }

/-- R108: offer energy is 0 while applied export is above 0. -/
def State.floorReached (s : State) : Bool :=
  decide (s.readiness.offerEnergy = 0 ∧ 0 < s.setpoint.applied)

/-- FLOOR_REACHED with the estimate, or 0 when it is absent (R108). -/
def State.floorNotice (s : State) : Notice := numbered .floorReached (s.readiness.estimate.getD 0)

/-- R108: the zeroing and floor hold of a floor reached. -/
def State.holdFloor (s : State) : State :=
  if s.floorReached then
    let z := s.zeroExport
    { z with readiness := { z.readiness with floorHold := true, holdAfterView := true } }
  else s

/-- The floor-reached test after a READING or a PROFILE, notice and all (R108). -/
def State.floorTest (s : State) : State :=
  if s.floorReached then s.holdFloor.notice s.floorNotice else s

/-- R31: in MEMBER and HOLDING the state follows the cause set. -/
def followCauses (st : StationState) (c : HoldCauses) : StationState :=
  match st with
  | .member | .holding => if c.isEmpty then .member else .holding
  | .offline => .offline
  | .joining => .joining
  | .leaving => .leaving
  | .faulted => .faulted

/-- A change of the cause set: the state is re-evaluated and the offer computed (R31, R103). A set that
does not change changes nothing. -/
def State.setCauses (c : HoldCauses) (s : State) : State :=
  if c = s.control.causes then s
  else
    State.computeOffer
      { s with control := { s.control with causes := c, state := followCauses s.control.state c } }

/-! ### Requests -/

/-- A request completes: its response enters the box, the request box empties, BUSY clears and DONE is set,
together (R157). -/
def State.complete (kind : Byte) (result : ResultCode) (fields : List Byte) (s : State) : State :=
  { s with
    link :=
      { s.link with
        request := none
        response := some { kind := kind, result := result, fields := fields }
        busy := false
        done := true } }

/-- The request in flight completes, if there is one. -/
def State.completeInFlight (result : ResultCode) (fields : List Byte) (s : State) : State :=
  match s.link.request with
  | some r => s.complete r.kind result fields
  | none => s

/-- The fields of START's OK and DUPLICATE responses: number and strap as latched (R161, R171). -/
def State.strapFields (s : State) : List Byte :=
  [byte s.number, flagByte (s.control.signalStrap.getD false)]

/-! ### Transmitter (R1, R10, R11, R20) -/

/-- How many characters a frame has (R4). -/
def Frame.charCount (f : Frame) : Nat :=
  12 + (if f.signal.isSome then 5 else 0)
  + (match f.rider with
     | .none => 0
     | .clock _ _ => 4
     | .roster _ => 5
     | .profile _ _ => 5)

/-- Microseconds from its start to the end of its last stop bit, its characters back to back (R1, R4). -/
def Frame.duration (f : Frame) : Nat := Config.charTimes f.charCount

/-- From when to when the own transmission lasts, where one was started (R1). -/
def Transmitter.span : Transmitter → Option (Instant × Instant)
  | .silent => none
  | .waiting _ _ => none
  | .sending start f => some (start, after start f.duration)
  | .mark start => some (start, after start Config.markDuration)

/-- The transmitter is silent from now on. A transmission in progress stops at once, and what is left of the line
activity is the station's own; one that has run out was the station's own up to its end (R11, R20). A frame still
waiting for the line is not sent. -/
def LineInterface.stopped (l : LineInterface) (now : Instant) : LineInterface :=
  match l.transmitter.span with
  | some (_, e) => { l with transmitter := .silent, ownUntil := some (min now e) }
  | none => { l with transmitter := .silent }

/-- Entry into FAULTED stops a frame in progress (R20); a frame that waits is not sent (R10). A mark in progress
is no frame and runs out. -/
def LineInterface.frameStopped (l : LineInterface) (now : Instant) : LineInterface :=
  match l.transmitter with
  | .sending _ _ => l.stopped now
  | .waiting _ _ => l.stopped now
  | .silent => l
  | .mark _ => l

/-! ### Grant Engine -/

/-- GRANT_CHANGED (R131, R134, R136). -/
def grantNotice (g : Nat) : Notice := numbered .grantChanged g

/-- The notice of a grant set to 0, made when the grant was above 0 (R134, R136). -/
def State.grantZeroed (s : State) : List Notice := if 0 < s.grant.ownGrant then [grantNotice 0] else []

/-- A run in flight is aborted (R133). -/
def State.abortRun (s : State) : State :=
  match s.grant.runStatus, s.grant.view with
  | .inFlight, some v =>
    State.notice (numbered .runAborted v.round)
      { s with
        grant := { s.grant with runStatus := .aborted }
        timer := { s.timer with outcome := .aborted } }
  | _, _ => s

/-! ### Entry into FAULTED -/

/-- What a request in flight completes with at the entry (R29, R170): START (kind 01h) with DUPLICATE and
its two fields, LEAVE or AVAIL with FAULTED. -/
def State.completeFaulted (s : State) : State :=
  match s.link.request with
  | some r =>
    if r.kind = 0x01#8 then s.complete r.kind .duplicate s.strapFields else s.complete r.kind .faulted []
  | none => s

/-- Entry into FAULTED from JOINING, MEMBER, HOLDING or LEAVING (R29, R134, R20, R151): the run in flight is
abandoned, the own grant and applied export become 0. The order of the two notices is left open and comes
with the command (log entry 9). -/
def State.enterFaulted (e : Evidence) (grantFirst : Bool) (s : State) : State :=
  let duplicate : Notice := { kind := .duplicateNumber, subject := none, value := .evidence e }
  let notices := if grantFirst then s.grantZeroed ++ [duplicate] else duplicate :: s.grantZeroed
  let s := s.completeFaulted
  let s :=
    { s with
      control := { s.control with state := .faulted, withdrawalPending := false, isolated := false }
      grant :=
        { s.grant with
          ownGrant := 0
          runStatus := match s.grant.runStatus with | .inFlight => .abandoned | r => r }
      line := s.line.frameStopped s.now }
  s.zeroExport.noticeAll notices

/-! ### Values after resets -/

/-- Every block at its power-on values; the inputs, the model's own fields and the queue stay. -/
def State.powerOnValues (s : State) : State :=
  { State.reset with
    inputs := s.inputs
    now := s.now
    freeIndex := s.freeIndex
    pending := s.pending }

/-- The values after RESTART and after LEAVE completion: power-on values, but the depot clock is kept and
runs on, the response box holds the OK of the request with DONE set, and the Notice Queue is the one given
(R40, R42, R98, R154, R177). -/
def State.offlineWith (kind : Byte) (fields : List Byte) (queue : List NoticeEntry) (s : State) : State :=
  let r := s.powerOnValues
  { r with
    window := { r.window with clock := s.window.clock }
    notices := queue
    link :=
      { r.link with
        response := some { kind := kind, result := .ok, fields := fields }
        done := true
        sdo := s.link.sdo } }

end Sys2Proof.Machine
end

