-- ==== Sys2Proof/Machine/Operands.lean ====
section
/-! DEFINITION. The records of the post link: request kinds, their lengths and fields with the range checks, and
the bytes of responses (R156, R171, R178). -/

namespace Sys2Proof.Machine

/-- The nine request kinds (R171). -/
inductive RequestKind where
  | start | profile | reading | avail | takeNotice | peer | status | leave | restart
  deriving DecidableEq, Repr

/-- The kind byte (R171). -/
def kindCode : RequestKind → Byte
  | .start => 0x01
  | .profile => 0x02
  | .reading => 0x03
  | .avail => 0x04
  | .takeNotice => 0x05
  | .peer => 0x06
  | .status => 0x07
  | .leave => 0x08
  | .restart => 0x09

/-- The kind a byte names, if it names one (R156, R171). -/
def kindOfByte (b : Byte) : Option RequestKind :=
  match b.toNat with
  | 1 => some .start
  | 2 => some .profile
  | 3 => some .reading
  | 4 => some .avail
  | 5 => some .takeNotice
  | 6 => some .peer
  | 7 => some .status
  | 8 => some .leave
  | 9 => some .restart
  | _ => none

/-- Request length (R171). -/
def kindLength : RequestKind → Nat
  | .start => 49
  | .profile => 9
  | .reading => 5
  | .avail => 1
  | .takeNotice => 0
  | .peer => 1
  | .status => 0
  | .leave => 0
  | .restart => 0

/-- The station states in which a kind is taken while BUSY is clear (R157). -/
def kindAllowed (k : RequestKind) (st : StationState) : Bool :=
  match k with
  | .start => decide (st = .offline)
  | .profile | .reading | .avail | .leave => st.joined
  | .takeNotice | .peer | .status | .restart => true

/-! ### Fields -/

/-- The one-byte field at a byte offset. -/
def fieldByte (fs : List Byte) (i : Nat) : Nat := (fs.getD i 0).toNat

/-- The two-byte field at a byte offset, most significant byte first (R153). -/
def fieldWord (fs : List Byte) (i : Nat) : Nat := fieldByte fs i * 256 + fieldByte fs (i + 1)

/-- A signed byte (R163). -/
def fieldSigned (fs : List Byte) (i : Nat) : Int := (fs.getD i 0).toInt

/-- A number lies in a range. -/
def within (lo n hi : Nat) : Bool := decide (lo ≤ n ∧ n ≤ hi)

/-- The number, counted from 1, of the first field that is out of range (R156). -/
def firstBad : List Bool → Option Nat
  | [] => none
  | ok :: oks => if ok then (firstBad oks).map (· + 1) else some 1

/-- A grid specification byte: care in bit 7, kind in bit 6, sense in bits 1 and 0, bits 5 to 2 clear
(R171). -/
def gridSpecOf (n : Nat) : Option GridSpec :=
  let care := decide (128 ≤ n)
  match n % 128 with
  | 1 => some ⟨care, .levelHigh⟩
  | 2 => some ⟨care, .levelLow⟩
  | 65 => some ⟨care, .rising⟩
  | 66 => some ⟨care, .falling⟩
  | 67 => some ⟨care, .either⟩
  | _ => none

def patternModeOf : Nat → Option PatternMode
  | 0 => some .none
  | 1 => some .all
  | 2 => some .any
  | 3 => some .ranked
  | _ => none

def planKindOf : Nat → Option PlanKind
  | 1 => some .roster
  | 2 => some .profile
  | 3 => some .clock
  | _ => none

/-- The rider plan entry at a byte offset, where kind, period and offset are in range (R70, R161). -/
def planEntryOf (fs : List Byte) (i : Nat) : Option PlanEntry :=
  match planKindOf (fieldByte fs i) with
  | some k =>
    if within 1 (fieldByte fs (i + 1)) 16 && decide (fieldByte fs (i + 2) < fieldByte fs (i + 1)) then
      some { kind := k, period := fieldByte fs (i + 1), offset := fieldByte fs (i + 2) }
    else none
  | none => none

/-- Rider plan entry i (from 0) of a START: entries beyond the count are neither read nor checked (R161). -/
def planFieldOk (fs : List Byte) (i : Nat) : Bool :=
  decide (fieldByte fs 33 ≤ i) || (planEntryOf fs (34 + 3 * i)).isSome

/-- The notice enable set of a START as a number: three bytes, bit 0 in the last (R171). -/
def enableField (fs : List Byte) : Nat := fieldByte fs 30 * 65536 + fieldByte fs 31 * 256 + fieldByte fs 32

/-- The range checks of START's fields 1 to 28, in order (R161, R171). -/
def startChecks (fs : List Byte) : List Bool :=
  [within 1 (fieldWord fs 0) 2000, within 1 (fieldByte fs 2) 150, within 1 (fieldByte fs 3) 50,
   within 4 (fieldByte fs 4) 60, within 0 (fieldWord fs 5) 1439,
   (gridSpecOf (fieldByte fs 7)).isSome, (gridSpecOf (fieldByte fs 8)).isSome,
   (gridSpecOf (fieldByte fs 9)).isSome, (gridSpecOf (fieldByte fs 10)).isSome,
   (patternModeOf (fieldByte fs 11)).isSome, within 0 (fieldWord fs 12) 2000,
   within 0 (fieldWord fs 14) 2000, within 0 (fieldWord fs 16) 2000, within 0 (fieldWord fs 18) 2000,
   within 0 (fieldWord fs 20) 2000, within 0 (fieldByte fs 22) 1, within 0 (fieldWord fs 23) 1439,
   within 0 (fieldWord fs 25) 1439 && decide (fieldWord fs 23 ≠ fieldWord fs 25),
   within 30 (fieldWord fs 27) 10800, within 1 (fieldByte fs 29) 60, decide (enableField fs < 2 ^ 17),
   within 0 (fieldByte fs 33) 4, planFieldOk fs 0, planFieldOk fs 1, planFieldOk fs 2, planFieldOk fs 3,
   within 0 (fieldWord fs 46) 1439, within 0 (fieldByte fs 48) 59]

/-- The range checks of PROFILE's fields (R171). -/
def profileChecks (fs : List Byte) : List Bool :=
  [within 40 (fieldWord fs 0) 400, within 0 (fieldWord fs 2) 1439, within 0 (fieldWord fs 4) 400,
   within 0 (fieldByte fs 6) 100, within 10 (fieldByte fs 7) 90, within 1 (fieldByte fs 8) 150]

/-- The range checks of READING's fields; the measured export takes the whole byte (R163, R171). -/
def readingChecks (fs : List Byte) : List Bool :=
  [within 0 (fieldWord fs 0) 1000, decide (-40 ≤ fieldSigned fs 2 ∧ fieldSigned fs 2 ≤ 70),
   within 0 (fieldByte fs 3) 150, true]

/-- The fourth check of R156, for each kind. -/
def fieldChecks (k : RequestKind) (fs : List Byte) : List Bool :=
  match k with
  | .start => startChecks fs
  | .profile => profileChecks fs
  | .reading => readingChecks fs
  | .avail => [within 0 (fieldByte fs 0) 1]
  | .peer => [within 0 (fieldByte fs 0) 31]
  | .takeNotice | .status | .leave | .restart => []

/-- The grid specification of a byte that passed its check. -/
def gridSpecD (n : Nat) : GridSpec := (gridSpecOf n).getD ⟨false, .levelHigh⟩

/-- The first `count` rider plan entries of a START (R70). -/
def planEntries (fs : List Byte) : List PlanEntry :=
  ((List.range (fieldByte fs 33)).map fun i => planEntryOf fs (34 + 3 * i)).filterMap id

/-- The configuration a START carries (R171). -/
def startConfiguration (fs : List Byte) : Configuration :=
  { depotLimit := fieldWord fs 0
    stageRating := fieldByte fs 2
    rampStep := fieldByte fs 3
    lapseTime := fieldByte fs 4
    windowEnd := fieldWord fs 5
    grid := ⟨gridSpecD (fieldByte fs 7), gridSpecD (fieldByte fs 8), gridSpecD (fieldByte fs 9),
             gridSpecD (fieldByte fs 10)⟩
    mode := (patternModeOf (fieldByte fs 11)).getD .none
    baseTarget := fieldWord fs 12
    levels := ⟨fieldWord fs 14, fieldWord fs 16, fieldWord fs 18, fieldWord fs 20⟩
    clockEnabled := decide (fieldByte fs 22 = 1)
    clockStart := fieldWord fs 23
    clockEnd := fieldWord fs 25
    maxRounds := fieldWord fs 27
    windDown := fieldByte fs 29
    noticeEnable := BitVec.ofNat 17 (enableField fs)
    plan := planEntries fs }

/-- The depot clock a START carries, fraction 0 (R79, R171). -/
def startClock (fs : List Byte) : Nat := clockOf (fieldWord fs 46) (fieldByte fs 48)

def profileOf (fs : List Byte) : BusProfile :=
  { capacity := fieldWord fs 0, departure := fieldWord fs 2, need := fieldWord fs 4,
    coldMargin := fieldByte fs 6, hardFloor := fieldByte fs 7, chargeLimit := fieldByte fs 8 }

/-- A reading as it is taken: age 0, tally 0 (R101). -/
def readingOf (fs : List Byte) : HeldReading :=
  { charge := fieldWord fs 0, temperature := fieldSigned fs 2, dischargeLimit := fieldByte fs 3,
    measured := fieldByte fs 4, age := 0, tally := 0 }

/-! ### Codes in responses and frames -/

def causesByte (c : HoldCauses) : Byte := bitsByte c.bits

/-- Result codes (R171). -/
def resultByte : ResultCode → Byte
  | .ok => 0x01
  | .unknown => 0x02
  | .length => 0x03
  | .state => 0x04
  | .range => 0x05
  | .duplicate => 0x06
  | .noBus => 0x07
  | .faulted => 0x08
  | .empty => 0x09

def windowCode : WindowState → Nat
  | .closed => 0
  | .opened => 1
  | .winding => 2

def stationCode : StationState → Nat
  | .offline => 0
  | .joining => 1
  | .member => 2
  | .holding => 3
  | .leaving => 4
  | .faulted => 5

def announcedCode : AnnouncedState → Nat
  | .member => 0
  | .holding => 1
  | .leaving => 2

def riderCode : RiderKind → Nat
  | .none => 0
  | .roster => 1
  | .profile => 2
  | .clock => 3

def presenceCode : Presence → Nat
  | .absent _ => 0
  | .fresh => 1
  | .stale => 2

def reasonCode : Presence → Nat
  | .absent .never => 1
  | .absent .silent => 2
  | .absent .left => 3
  | .fresh => 0
  | .stale => 0

def runCode : RunStatus → Nat
  | .none => 0
  | .inFlight => 1
  | .completed => 2
  | .aborted => 3
  | .abandoned => 4

/-- The value of a notice in its record (R178). -/
def noticeCode : NoticeValue → Nat
  | .number n => n
  | .authority (some k) => k
  | .authority none => 0xFFFF
  | .evidence .heard => 1
  | .evidence .readback => 2
  | .presence p => presenceCode p
  | .stop active => if active then 1 else 0

/-- A response record: kind, result, length, fields (R171). -/
def Response.bytes (r : Response) : List Byte :=
  r.kind :: resultByte r.result :: byte r.fields.length :: r.fields

/-- The empty record (R158, R171). -/
def emptyRecord : List Byte := [0x00, 0x00, 0x00]

/-- The notice record of nine bytes (R178). -/
def noticeRecord (e : NoticeEntry) : List Byte :=
  byte e.kind.code ::
    (match e.subject with | some k => byte k | none => 0xFF) ::
      (be16 (noticeCode e.value) ++ [byte e.repeats] ++ be16 e.firstRound ++ be16 e.lastRound)

/-- The core fields of a PEER response, 0 where the part is absent (R168, R171). -/
def coreRecord (c : Option FrameCore) : List Byte :=
  match c with
  | some c =>
    [byte (announcedCode c.state), causesByte c.causes, byte c.offerPower] ++ be16 c.offerEnergy ++
      [byte c.announced] ++ be16 c.digest.toNat ++ [flagByte c.digestCurrent]
  | none => List.replicate 9 0

/-- PEER's OK fields: the entry of the number asked, absent parts as 0 (R63, R168, R171). -/
def peerFields (k : Nat) (e : PeerEntry) : List Byte :=
  [byte k,
   bitsByte [e.core.isSome, e.signal.isSome, e.roster.isSome, e.profile.isSome, e.lastHeard.isSome],
   byte (presenceCode e.presence), byte (reasonCode e.presence), byte e.missCount, flagByte e.frameSince]
  ++ be16 (e.lastHeard.getD 0) ++ coreRecord e.core ++ [byte (riderCode e.riderKind)]
  ++ (match e.signal with
      | some p => [byte (windowCode p.state), byte p.sequence] ++ be16 p.budget
      | none => List.replicate 4 0)
  ++ (match e.roster with
      | some r => setBytes r.heard ++ [byte r.age]
      | none => List.replicate 5 0)
  ++ (match e.profile with
      | some p => be16 p.departure ++ be16 p.floor ++ [byte p.age]
      | none => List.replicate 5 0)

/-- The reading age in whole seconds, rounded down (R99). -/
def ageSeconds (r : HeldReading) : Nat := r.age / Config.second

/-- STATUS's OK fields (R169, R171). -/
def statusFields (s : State) : List Byte :=
  [bitsByte [s.control.number.isSome, s.readiness.floor.isSome, s.readiness.estimate.isSome,
             s.readiness.reading.isSome, s.peers.authority.isSome],
   byte (s.control.number.getD 0), flagByte (s.control.signalStrap.getD false),
   byte (stationCode s.control.state), causesByte s.control.causes]
  ++ be16 s.timer.roundCount
  ++ [byte (windowCode s.window.adopted.state), byte s.window.adopted.sequence]
  ++ be16 s.window.adopted.budget
  ++ [byte (s.peers.authority.getD 0), byte s.peers.census, byte s.peers.liveCount, byte s.grant.ownGrant,
      byte s.setpoint.applied, byte s.setpoint.announced, byte s.readiness.offerPower]
  ++ be16 s.readiness.offerEnergy ++ be16 (s.readiness.floor.getD 0) ++ be16 (s.readiness.estimate.getD 0)
  ++ be16 (match s.readiness.reading with | some r => ageSeconds r | none => 0)
  ++ [bitsByte [s.readiness.floorHold, s.readiness.deviationFlag, s.grant.splitSeen, s.control.isolated],
      byte (runCode s.grant.runStatus), byte s.timer.runMisses]
  ++ be16 (clockMinute s.window.clock)
  ++ [byte (clockSecond s.window.clock), byte s.line.lastCorrupt]

/-- READING's OK fields (R163): `reached` is whether this reading reached the floor. -/
def readingFields (s : State) (reached : Bool) : List Byte :=
  [byte s.readiness.offerPower] ++ be16 s.readiness.offerEnergy
  ++ [bitsByte [s.readiness.floorHold, s.readiness.deviationFlag, reached]]

end Sys2Proof.Machine
end

