-- ==== Sys2Proof/Machine/Frames.lean ====
section
/-! DEFINITION. Frames as characters: CRC-16, the layout both ways, and the checks a received frame must pass (R2 to R7). -/

namespace Sys2Proof.Machine

/-! ### CRC-16 (R5) -/

/-- One shift by the generator x^16 + x^12 + x^5 + 1. -/
def crcShift (c : Word16) : Word16 := if c.msb then (c <<< 1) ^^^ 0x1021#16 else c <<< 1

def crcShifts : Nat → Word16 → Word16
  | 0, c => c
  | n + 1, c => crcShifts n (crcShift c)

/-- One character, most significant bit first. -/
def crcStep (c : Word16) (b : Byte) : Word16 := crcShifts 8 (c ^^^ ((b.setWidth 16) <<< 8))

/-- Initial value 0000h, no final inversion; over no characters it is 0 (R5). -/
def crc16 (bs : List Byte) : Word16 := bs.foldl crcStep 0

/-! ### Sending (R3, R4, R66) -/

/-- The three characters of an opening mark (R2). -/
def markChars : List Byte := [0x4D, 0x4D, 0xB2]

def Rider.kind : Rider → RiderKind
  | .none => .none
  | .roster _ => .roster
  | .profile _ _ => .profile
  | .clock _ _ => .clock

/-- The frame flags character (R3). -/
def Frame.flags (f : Frame) : Byte :=
  byte ((if f.signal.isSome then 128 else 0) + (if f.core.state = .leaving then 64 else 0)
    + 16 * riderCode f.rider.kind + 4 * announcedCode f.core.state
    + (if f.core.digestCurrent then 2 else 0))

def signalChars : Option SignalPart → List Byte
  | some p => [0x53, byte (windowCode p.state), byte p.sequence] ++ be16 p.budget
  | none => []

def riderChars : Rider → List Byte
  | .none => []
  | .roster heard => 0x52 :: setBytes heard
  | .profile departure floor => 0x50 :: (be16 departure ++ be16 floor)
  | .clock minute second => 0x43 :: (be16 minute ++ [byte second])

/-- Positions 1 up to the last character before the trailer: what the CRC covers (R5). -/
def Frame.body (f : Frame) : List Byte :=
  [byte f.station, f.flags, causesByte f.core.causes, byte f.core.offerPower]
  ++ be16 f.core.offerEnergy ++ [byte f.core.announced] ++ be16 f.core.digest.toNat
  ++ signalChars f.signal ++ riderChars f.rider

/-- The frame as it is sent: opening character, body, trailer with the high character first (R3, R5). -/
def Frame.chars (f : Frame) : List Byte := 0x96 :: (f.body ++ be16 (crc16 f.body).toNat)

/-- The characters on their way out, with their start instant. -/
def Transmitter.driven : Transmitter → Option (Instant × List Byte)
  | .silent => none
  | .waiting _ _ => none
  | .sending start f => some (start, f.chars)
  | .mark start => some (start, markChars)

/-- The level the part drives on the depot line: from the start instant on one bit of its characters every 625/12 µs,
recessive before, after and while nothing is sent (R1). What other stations drive is not in State (log entry 4). -/
def State.driving (s : State) : Level :=
  match s.line.transmitter.driven with
  | some (start, cs) =>
    if start ≤ s.now then ((transmission cs).levels[12 * (s.now - start).toNat / 625]?).getD .recessive
    else .recessive
  | none => .recessive

/-! ### Receiving (R7) -/

def announcedOf : Nat → Option AnnouncedState
  | 0 => some .member
  | 1 => some .holding
  | 2 => some .leaving
  | _ => none

def windowOf : Nat → Option WindowState
  | 0 => some .closed
  | 1 => some .opened
  | 2 => some .winding
  | _ => none

/-- The hold cause character; bits 6 and 7 must be 0 (R3, R7). -/
def causesOf (b : Byte) : Option HoldCauses :=
  if b.getLsbD 6 || b.getLsbD 7 then none
  else some ⟨b.getLsbD 0, b.getLsbD 1, b.getLsbD 2, b.getLsbD 3, b.getLsbD 4, b.getLsbD 5⟩

/-- Two characters as a number. -/
def number16 (h l : Byte) : Nat := h.toNat * 256 + l.toNat

/-- The signal part where the flags call for one, and what follows it. -/
def takeSignal (present : Bool) (cs : List Byte) : Option (Option SignalPart × List Byte) :=
  if present then
    match cs with
    | tag :: w :: q :: bh :: bl :: rest =>
      match windowOf w.toNat with
      | some state =>
        if tag = 0x53#8 ∧ q.toNat ≤ 15 ∧ number16 bh bl ≤ 2000 then
          some (some ⟨state, q.toNat, number16 bh bl⟩, rest)
        else none
      | none => none
    | _ => none
  else some (none, cs)

/-- The rider of the kind the flags name; nothing may follow it. -/
def takeRider (kind : Nat) (cs : List Byte) : Option Rider :=
  match kind, cs with
  | 0, [] => some .none
  | 1, [tag, a, b, c, d] => if tag = 0x52#8 then some (.roster (a ++ b ++ c ++ d)) else none
  | 2, [tag, mh, ml, fh, fl] =>
    if tag = 0x50#8 ∧ number16 mh ml ≤ 1439 ∧ number16 fh fl ≤ 400 then
      some (.profile (number16 mh ml) (number16 fh fl))
    else none
  | 3, [tag, mh, ml, sec] =>
    if tag = 0x43#8 ∧ number16 mh ml ≤ 1439 ∧ sec.toNat ≤ 59 then
      some (.clock (number16 mh ml) sec.toNat)
    else none
  | _, _ => none

/-- The characters between the opening character and the trailer as a frame, where every field lies in its
range, the parts are those the flags declare and LEAVE agrees with the state (R3, R4, R7). -/
def readBody (cs : List Byte) : Option Frame :=
  match cs with
  | n :: flags :: causes :: power :: eh :: el :: announced :: dh :: dl :: parts =>
    match announcedOf (flags.toNat / 4 % 4), causesOf causes, takeSignal (flags.getLsbD 7) parts with
    | some state, some causes, some (signal, rest) =>
      match takeRider (flags.toNat / 16 % 4) rest with
      | some rider =>
        if n.toNat ≤ 31 ∧ flags.getLsbD 0 = false ∧ power.toNat ≤ 150 ∧ number16 eh el ≤ 400 ∧
            flags.getLsbD 6 = decide (state = .leaving) then
          some
            { station := n.toNat
              core :=
                { state := state
                  causes := causes
                  offerPower := power.toNat
                  offerEnergy := number16 eh el
                  announced := announced.toNat
                  digest := dh ++ dl
                  digestCurrent := flags.getLsbD 1 }
              signal := signal
              rider := rider }
        else none
      | none => none
    | _, _, _ => none
  | _ => none

/-- A frame candidate: good, with the frame, or corrupt (R7). Its length is right exactly when every part the
flags call for is there and nothing is left over (R4). -/
def readFrame (cs : List Byte) : Option Frame :=
  match cs with
  | first :: rest =>
    let body := rest.take (rest.length - 2)
    if first = 0x96#8 ∧ 2 ≤ rest.length ∧ rest.drop (rest.length - 2) = be16 (crc16 body).toNat then readBody body
    else none
  | [] => none

/-- The values a frame's fields may take (R3): what R7 checks, said of the frame. -/
def Frame.valid (f : Frame) : Bool :=
  decide (f.station ≤ 31 ∧ f.core.offerPower ≤ 150 ∧ f.core.offerEnergy ≤ 400 ∧ f.core.announced ≤ 255)
  && (match f.signal with
      | some p => decide (p.sequence ≤ 15 ∧ p.budget ≤ 2000)
      | none => true)
  && (match f.rider with
      | .none | .roster _ => true
      | .profile d fl => decide (d ≤ 1439 ∧ fl ≤ 400)
      | .clock m sec => decide (m ≤ 1439 ∧ sec ≤ 59))

/-- The classes of a received transmission (R2). -/
inductive Heard where
  | mark
  | fragment
  | candidate (chars : List Byte)
  | corrupt
  deriving DecidableEq, Repr

/-- R2's table: by length, first character and framing faults. -/
def classify (r : Reception) : Heard :=
  if r.chars = markChars ∧ r.framingFault = false then .mark
  else if r.chars.length < 4 then .fragment
  else if r.chars.head? = some 0x96#8 ∧ r.chars.length ≤ 22 ∧ r.framingFault = false then .candidate r.chars
  else .corrupt

end Sys2Proof.Machine
end

