-- ==== Sys2Proof/Machine/Chain.lean ====
section
/-! DEFINITION. The grant chain: what a run works out from a round view, and from nothing else (07). -/

namespace Sys2Proof.Machine

/-- A chain candidate with the figures it takes part with (R120, R121). -/
structure ChainMember where
  number : Nat
  power : Nat
  energy : Nat
  departure : Option Nat
  deriving DecidableEq, Repr

/-! ### The three amounts (R121, R124) -/

/-- R121: a held station: present but not heard in this interval. -/
def PeerRecord.held (r : PeerRecord) : Bool := !r.received

/-- R121: a peer that is a chain candidate. -/
def PeerRecord.candidate (r : PeerRecord) : Bool :=
  r.received && decide (r.core.state = .member) && decide (0 < r.core.offerPower)

/-- R124: floor(B × live / census), 0 when the census is 0. -/
def RoundView.scaledBudget (v : RoundView) : Nat :=
  if v.census = 0 then 0 else v.budget * v.liveCount / v.census

/-- R124: the sum of the held stations' announced applied export. -/
def RoundView.heldConsumption (v : RoundView) : Nat :=
  ((v.peers.filter PeerRecord.held).map fun r => r.core.announced).sum

/-- R124: the larger of 0 and Bs − H. -/
def RoundView.available (v : RoundView) : Nat := v.scaledBudget - v.heldConsumption

/-! ### The chain (R120, R121, R125) -/

/-- R120: the own station as a candidate, with the figures its frame carried. -/
def RoundView.ownMember (v : RoundView) : List ChainMember :=
  match v.sent with
  | some o =>
    if v.ownState = .member ∧ 0 < v.ownOffer.power ∧ 0 < o.power then
      [{ number := v.ownNumber, power := o.power, energy := o.energy, departure := v.ownDeparture }]
    else []
  | none => []

/-- R121: the peers that are candidates. -/
def RoundView.peerMembers (v : RoundView) : List ChainMember :=
  (v.peers.filter PeerRecord.candidate).map fun r =>
    { number := r.number, power := r.core.offerPower, energy := r.core.offerEnergy, departure := r.departure }

def RoundView.candidates (v : RoundView) : List ChainMember := v.ownMember ++ v.peerMembers

/-- A missing departure counts as earlier than any present one (R125). -/
def departureKey : Option Nat → Nat
  | none => 0
  | some d => d + 1

/-- R125: a stands before b. -/
def ChainMember.before (a b : ChainMember) : Bool :=
  if a.energy = b.energy then
    if departureKey a.departure = departureKey b.departure then decide (a.number ≤ b.number)
    else decide (departureKey b.departure < departureKey a.departure)
  else decide (b.energy < a.energy)

def insertMember (m : ChainMember) : List ChainMember → List ChainMember
  | [] => [m]
  | x :: xs => if m.before x then m :: x :: xs else x :: insertMember m xs

def sortChain : List ChainMember → List ChainMember
  | [] => []
  | m :: ms => insertMember m (sortChain ms)

/-- The chain in its order (R125). -/
def RoundView.chain (v : RoundView) : List ChainMember := sortChain v.candidates

/-! ### The two passes (R126) -/

/-- Pass 1: the smaller of offer power and the share. -/
def passOne (share : Nat) (ms : List ChainMember) : List (ChainMember × Nat) :=
  ms.map fun m => (m, min m.power share)

/-- Pass 2, with the remainder R. -/
def passTwo : Nat → List (ChainMember × Nat) → List (ChainMember × Nat)
  | _, [] => []
  | r, (m, g) :: rest => (m, g + min (m.power - g) r) :: passTwo (r - min (m.power - g) r) rest

def grantSum (gs : List (ChainMember × Nat)) : Nat := (gs.map Prod.snd).sum

/-- Both passes over a chain in order, with available budget A. -/
def twoPasses (a : Nat) (ms : List ChainMember) : List (ChainMember × Nat) :=
  match ms with
  | [] => []
  | _ :: _ =>
    let one := passOne (a / ms.length) ms
    passTwo (a - grantSum one) one

/-- The chain grants of a run, in chain order. -/
def RoundView.grants (v : RoundView) : List (ChainMember × Nat) := twoPasses v.available v.chain

/-! ### Digest and own grant (R127, R129, R130) -/

def insertPair (p : Nat × Nat) : List (Nat × Nat) → List (Nat × Nat)
  | [] => [p]
  | x :: xs => if p.1 ≤ x.1 then p :: x :: xs else x :: insertPair p xs

def sortPairs : List (Nat × Nat) → List (Nat × Nat)
  | [] => []
  | p :: ps => insertPair p (sortPairs ps)

/-- The grant list: (station number, grant), in ascending station number (R126). -/
def RoundView.grantList (v : RoundView) : List (Nat × Nat) :=
  sortPairs (v.grants.map fun g => (g.1.number, g.2))

/-- R130: the CRC-16 over the grant list. -/
def RoundView.grantDigest (v : RoundView) : Word16 :=
  crc16 (v.grantList.flatMap fun p => [byte p.1, byte p.2])

/-- R129: M, the stations in the union of the own heard set and every roster held. -/
def RoundView.known (v : RoundView) : Nat := setSize (v.rosters.foldl (· ||| ·) v.heard)

/-- The own station's chain grant, 0 when it is not a chain member (R127). -/
def RoundView.ownChainGrant (v : RoundView) : Nat :=
  match v.grantList.find? fun p => p.1 = v.ownNumber with
  | some p => p.2
  | none => 0

/-- R127, R129: the own grant: 0 in JOINING, else the chain grant, capped by the split guard where the
run's split-seen flag is set. -/
def RoundView.ownGrant (v : RoundView) (splitSeen : Bool) : Nat :=
  if v.ownState = .joining then 0
  else if splitSeen then min v.ownChainGrant (v.available / v.known)
  else v.ownChainGrant

/-! ### The split test (R128) -/

/-- The own last completed run belongs to the round before. -/
def previousRun (digestRound : Option Nat) (round : Nat) : Bool :=
  match digestRound with
  | some r => decide ((r + 1) % 65536 = round)
  | none => false

/-- How many compared peers' digests differ from the own. -/
def RoundView.differing (v : RoundView) (digest : Word16) : Nat :=
  (v.peers.filter fun r => r.received && r.core.digestCurrent && decide (r.core.digest ≠ digest)).length

/-! ### Freezing (R119 to R122) -/

/-- The records of the FRESH and STALE peers, in ascending station number (R119). -/
def peerRecords (own : Option Nat) (received : StationSet) : Nat → List PeerEntry → List PeerRecord
  | _, [] => []
  | k, e :: es =>
    (match e.core with
     | some c =>
       if decide (some k ≠ own) && e.presence.isPresent then
         [{ number := k, received := received.getLsbD k, core := c, departure := e.profile.map fun p => p.departure }]
       else []
     | none => [])
      ++ peerRecords own received (k + 1) es

/-- The round view of an allocation point (R119, R120, R122), from the blocks as its steps have left them. -/
def State.roundView (c : Configuration) (s : State) : RoundView :=
  { ownNumber := s.number
    ownState := s.control.state
    ownOffer := ⟨s.readiness.offerPower, s.readiness.offerEnergy⟩
    ownDeparture := s.readiness.profile.map fun p => p.departure
    sent := s.grant.sentOffer
    peers := peerRecords s.control.number s.peers.received 0 s.peers.entries
    received := s.peers.received
    heard := s.peers.heard
    rosters := s.peers.entries.filterMap fun e => e.roster.map fun r => r.heard
    liveCount := s.peers.liveCount
    census := s.peers.census
    budget := min s.window.adopted.budget c.depotLimit
    round := s.timer.roundCount
    frozenAt := s.now }

end Sys2Proof.Machine
end

