-- ==== Sys2Proof/Machine/Peers.lean ====
section
/-! DEFINITION. The Peer Table: storing frames, ageing, live count, census and authority (03). -/

namespace Sys2Proof.Machine

/-! ### Walks over the 32 entries, by station number -/

/-- The set of the stations whose entry has a property; the list starts at station `k`. -/
def stationsWhere (p : Nat → PeerEntry → Bool) : Nat → List PeerEntry → StationSet
  | _, [] => 0
  | k, e :: es => (if p k e then stationBit k else 0) ||| stationsWhere p (k + 1) es

/-- How many entries have a property. -/
def countWhere (p : Nat → PeerEntry → Bool) : Nat → List PeerEntry → Nat
  | _, [] => 0
  | k, e :: es => (if p k e then 1 else 0) + countWhere p (k + 1) es

/-- The lowest station number whose entry has a property. -/
def firstWhere (p : Nat → PeerEntry → Bool) : Nat → List PeerEntry → Option Nat
  | _, [] => none
  | k, e :: es => if p k e then some k else firstWhere p (k + 1) es

/-- A station number other than the own one. -/
def isPeer (own : Option Nat) (k : Nat) : Bool := decide (some k ≠ own)

/-! ### Storing (R46 to R50) -/

/-- R47: a ROSTER replaces the roster, a PROFILE the profile, each with age 0; the other kinds store nothing. -/
def PeerEntry.withRider (r : Rider) (e : PeerEntry) : PeerEntry :=
  match r with
  | .roster heard => { e with roster := some { heard := heard, age := 0 } }
  | .profile d fl => { e with profile := some { departure := d, floor := fl, age := 0 } }
  | .clock _ _ => e
  | .none => e

/-- R46, R48: a frame without LEAVE; an ABSENT entry becomes FRESH. -/
def PeerEntry.stored (f : Frame) (round : Nat) (e : PeerEntry) : PeerEntry :=
  PeerEntry.withRider f.rider
    { e with
      presence := if e.presence.isPresent then e.presence else .fresh
      missCount := if e.presence.isPresent then e.missCount else 0
      core := some f.core
      riderKind := f.rider.kind
      signal := f.signal
      lastHeard := some round
      frameSince := true }

/-- R49: a LEAVE frame. -/
def PeerEntry.departed (f : Frame) (round : Nat) (e : PeerEntry) : PeerEntry :=
  { e with
    presence := .absent .left
    core := some f.core
    riderKind := f.rider.kind
    signal := none
    roster := none
    profile := none
    lastHeard := some round
    frameSince := false
    leftSince := true }

/-- R56: a LEAVE frame lowers the live count when the entry stood FRESH or STALE after the latest ageing and no
LEAVE frame from the peer has come since. -/
def PeerEntry.leaverCounted (e : PeerEntry) : Bool := e.standing.isPresent && !e.leftSince

/-- R58: the census, when it stood FRESH, STALE or ABSENT with reason SILENT. -/
def PeerEntry.leaverInCensus (e : PeerEntry) : Bool :=
  (e.standing.isPresent || decide (e.standing = .absent .silent)) && !e.leftSince

/-- R49, R56, R58: a LEAVE frame from station k delivered. -/
def PeerTable.departed (k : Nat) (f : Frame) (round : Nat) (adopted : WindowState) (t : PeerTable) :
    PeerTable :=
  let e := t.entry k
  let live := if e.leaverCounted then t.liveCount - 1 else t.liveCount
  { t with
    entries := t.entries.set k (e.departed f round)
    liveCount := live
    census := if adopted ≠ .closed ∧ e.leaverInCensus = true then max (t.census - 1) live else t.census }

/-- R46: any other frame from station k delivered. -/
def PeerTable.stored (k : Nat) (f : Frame) (round : Nat) (t : PeerTable) : PeerTable :=
  { t with entries := t.entries.set k ((t.entry k).stored f round) }

/-- A good peer frame is stored, with its notice: PEER_CHANGED where the presence changes at the delivery
(R46, R48, R49). -/
def State.storeFrame (f : Frame) (s : State) : State :=
  let e := s.peers.entry f.station
  if f.core.state = .leaving then
    let t := { s with peers := s.peers.departed f.station f s.timer.roundCount s.window.adopted.state }
    if e.presence.isPresent then t.notice (peerNotice f.station (.absent .left)) else t
  else
    let t := { s with peers := s.peers.stored f.station f s.timer.roundCount }
    if e.presence.isPresent then t else t.notice (peerNotice f.station .fresh)

/-! ### Ageing (R51 to R55) -/

/-- R52: a stored rider grows one round older and is cleared at 16. -/
def Roster.aged (r : Roster) : Option Roster := if 16 ≤ r.age + 1 then none else some { r with age := r.age + 1 }

def PeerProfile.aged (p : PeerProfile) : Option PeerProfile :=
  if 16 ≤ p.age + 1 then none else some { p with age := p.age + 1 }

/-- R51's table. -/
def presenceOfMisses (m : Nat) : Presence :=
  if m ≤ 1 then .fresh else if m ≤ 7 then .stale else .absent .silent

/-- R51, R52: the ageing of a peer entry; an ABSENT entry is not aged. -/
def PeerEntry.aged (e : PeerEntry) : PeerEntry :=
  if e.presence.isPresent then
    let misses := if e.frameSince then 0 else min 8 (e.missCount + 1)
    let p := presenceOfMisses misses
    if p.isPresent then
      { e with
        presence := p
        missCount := misses
        roster := e.roster.bind Roster.aged
        profile := e.profile.bind PeerProfile.aged
        standing := p
        leftSince := false }
    else
      { e with
        presence := p, missCount := misses, signal := none, roster := none, profile := none, standing := p,
        leftSince := false }
  else { e with standing := e.presence, leftSince := false }

/-- The ageing of every entry but the own one (R45, R51). -/
def ageEntries (own : Option Nat) : Nat → List PeerEntry → List PeerEntry
  | _, [] => []
  | k, e :: es => (if isPeer own k then e.aged else e) :: ageEntries own (k + 1) es

/-- R53: a notice for each change of presence, in ascending station number. -/
def presenceNotices : Nat → List PeerEntry → List PeerEntry → List Notice
  | k, old :: olds, new :: news =>
    (if old.presence.sameKind new.presence then [] else [peerNotice k new.presence])
      ++ presenceNotices (k + 1) olds news
  | _, _, _ => []

/-- R54: the flags are captured and cleared. -/
def receivedSet (own : Option Nat) (es : List PeerEntry) : StationSet :=
  stationsWhere (fun k e => isPeer own k && e.frameSince) 0 es

def clearFlags (es : List PeerEntry) : List PeerEntry := es.map fun e => { e with frameSince := false }

/-- R55: the own number with the received set. -/
def heardSet (own : Option Nat) (received : StationSet) : StationSet :=
  match own with
  | some n => stationBit n ||| received
  | none => received

/-- R56: 1 for the own station in MEMBER or HOLDING, and the FRESH or STALE peers. -/
def liveCountOf (own : Option Nat) (st : StationState) (es : List PeerEntry) : Nat :=
  (if st.joined then 1 else 0) + countWhere (fun k e => isPeer own k && e.presence.isPresent) 0 es

/-- R59: the lowest-numbered candidate: the own station with its strap set in MEMBER or HOLDING, a FRESH
peer with a signal part. -/
def authorityOf (own : Option Nat) (strap : Bool) (st : StationState) (es : List PeerEntry) : Option Nat :=
  firstWhere
    (fun k e =>
      if isPeer own k then decide (e.presence = .fresh) && e.signal.isSome else strap && st.joined)
    0 es

/-- R57: the census, from the window held until now and the one now adopted. -/
def censusOf (held adopted : SignalPart) (census live : Nat) : Nat :=
  if adopted.state = .closed then 0
  else if held.state = .closed ∨ held.sequence ≠ adopted.sequence then live
  else max census live

/-- Steps 1 to 4 of R61, with their notices in order: presence, then AUTHORITY_CHANGED (R53, R60). -/
def State.agePeers (s : State) : State × List Notice :=
  let own := s.control.number
  let aged := ageEntries own 0 s.peers.entries
  let received := receivedSet own aged
  let authority := authorityOf own (s.control.signalStrap.getD false) s.control.state aged
  ({ s with
     peers :=
       { s.peers with
         entries := clearFlags aged
         received := received
         heard := heardSet own received
         liveCount := liveCountOf own s.control.state aged
         authority := authority } },
   presenceNotices 0 s.peers.entries aged
     ++ (if authority = s.peers.authority then []
         else [{ kind := .authorityChanged, subject := none, value := .authority authority }]))

end Sys2Proof.Machine
end

