-- ==== Sys2Proof/Machine/Announce.lean ====
section
/-! DEFINITION. The Frame Builder: the rider plan and the own frame (04). -/

namespace Sys2Proof.Machine

/-! ### The rider plan (R70 to R73) -/

/-- R70: the default plan of station n. -/
def defaultPlan (n : Nat) : List PlanEntry :=
  [{ kind := .clock, period := 4, offset := 0 },
   { kind := .roster, period := 2, offset := n % 2 },
   { kind := .profile, period := 8, offset := n % 8 }]

/-- R64, R70: the plan START leaves, every mark clear. -/
def startPlan (n : Nat) (given : List PlanEntry) : List RiderEntry :=
  (if given.isEmpty then defaultPlan n else given).map fun e => { entry := e, owed := false }

/-- What the selection is made in: the round count, the signal-station strap, and whether a bus profile is
held (R71). -/
structure PlanContext where
  round : Nat
  strap : Bool
  profileHeld : Bool
  deriving DecidableEq, Repr

/-- R71: the entry is due in the round. -/
def riderDue (x : PlanContext) (e : RiderEntry) : Bool :=
  decide (x.round % e.entry.period = e.entry.offset)
  && (match e.entry.kind with
      | .clock => x.strap
      | .profile => x.profileHeld
      | .roster => true)

/-- R72, 1: an owed entry that may be sent. -/
def riderSendable (x : PlanContext) (e : RiderEntry) : Bool :=
  e.owed && (decide (e.entry.kind ≠ .profile) || x.profileHeld)

/-- The place of the first entry with a property, in table order. -/
def firstIndex (p : RiderEntry → Bool) : List RiderEntry → Option Nat
  | [] => none
  | e :: es => if p e then some 0 else (firstIndex p es).map (· + 1)

/-- R72, 1 and 2: the place of the chosen entry. -/
def chosenIndex (x : PlanContext) (plan : List RiderEntry) : Option Nat :=
  match firstIndex (riderSendable x) plan with
  | some i => some i
  | none => firstIndex (riderDue x) plan

/-- R72, 3 to 5: the marks after the selection; `chosen` is the place of the chosen entry from here on. -/
def remark (x : PlanContext) : Option Nat → List RiderEntry → List RiderEntry
  | _, [] => []
  | some 0, e :: es => { e with owed := false } :: remark x none es
  | some (i + 1), e :: es => markOne e :: remark x (some i) es
  | none, e :: es => markOne e :: remark x none es
where
  /-- An entry that is not the chosen one. -/
  markOne (e : RiderEntry) : RiderEntry :=
    { e with owed := (e.owed || riderDue x e) && (decide (e.entry.kind ≠ .profile) || x.profileHeld) }

/-- The kind of the chosen entry (R72). -/
def chosenKind (x : PlanContext) (plan : List RiderEntry) : Option PlanKind :=
  match chosenIndex x plan with
  | some i => (plan[i]?).map fun e => e.entry.kind
  | none => none

/-! ### The own frame (R65 to R69, R74, R75) -/

/-- R74: the contents of the chosen rider; a CLOCK carries the clock at the current anchor. -/
def State.riderOf (anchor : Instant) (k : Option PlanKind) (s : State) : Rider :=
  match k with
  | none => .none
  | some .roster => .roster s.peers.heard
  | some .profile =>
    match s.readiness.profile with
    | some p => .profile p.departure (s.readiness.floor.getD 0)
    | none => .none
  | some .clock => .clock (clockMinute (s.clockAt anchor)) (clockSecond (s.clockAt anchor))

/-- R68: the digest-current flag. -/
def State.digestCurrent (s : State) : Bool := previousRun s.grant.digestRound s.timer.roundCount

/-- The state a frame carries, in the states in which one is built (R65, R66). -/
def announcedState : StationState → Option AnnouncedState
  | .member => some .member
  | .holding => some .holding
  | .leaving => some .leaving
  | .offline => none
  | .joining => none
  | .faulted => none

/-- R69: the signal part at a station with the strap: the own window. -/
def State.ownSignal (s : State) : Option SignalPart :=
  if s.control.signalStrap = some true then
    some ⟨s.window.own.state, s.window.own.sequence, s.window.own.budget⟩
  else none

def State.planContext (s : State) : PlanContext :=
  { round := s.timer.roundCount
    strap := s.control.signalStrap.getD false
    profileHeld := s.readiness.profile.isSome }

/-- The own frame (R66 to R69): a LEAVE frame carries offer power 0 and announced applied export 0. -/
def State.ownFrame (anchor : Instant) (st : AnnouncedState) (s : State) : Frame :=
  { station := s.number
    core :=
      { state := st
        causes := s.control.causes
        offerPower := if st = .leaving then 0 else s.readiness.offerPower
        offerEnergy := s.readiness.offerEnergy
        announced := if st = .leaving then 0 else announcedFor s.readiness s.setpoint.applied
        digest := s.grant.digest
        digestCurrent := s.digestCurrent }
    signal := s.ownSignal
    rider := s.riderOf anchor (chosenKind s.planContext (s.plan.getD [])) }

/-- R72, R73: the marks move at the build. -/
def State.planBuilt (s : State) : Option (List RiderEntry) :=
  s.plan.map fun p => remark s.planContext (chosenIndex s.planContext p) p

end Sys2Proof.Machine
end

