-- ==== Sys2Proof/Machine/Flags.lean ====
section
/-! DEFINITION. The flags the post processor sees: the flags byte, IRQ, and the wrapper in which every event
takes place, which keeps IRQ with its two conditions. -/

namespace Sys2Proof.Machine

/-- The flags byte: BUSY, DONE, NOTICE, OVERRUN in bits 0 to 3 (R159); NOTICE is read from the queue (R176). -/
def State.flagsByte (s : State) : Byte :=
  bitsByte [s.link.busy, s.link.done, !s.notices.isEmpty, s.link.overrun]

/-- IRQ is asserted while DONE is set or the queue holds an entry; a part without supply or in RESET
releases it (R160). -/
def State.irqLevel (s : State) : Bool := s.running && (s.link.done || !s.notices.isEmpty)

/-- IRQ follows its two conditions at the instant each changes (R160). -/
def State.settle (s : State) : State := { s with link := { s.link with irq := s.irqLevel } }

/-- Something takes place while the part works; in RESET and without supply nothing does (R21, R153,
R170). -/
def State.whenRunning (f : State → State) (s : State) : State := if s.running then f s else s

/-- An event `dt` microseconds after the one before: time passes, it takes place, IRQ follows. -/
def happens (dt : Nat) (f : State → State) (s : State) : Host.Outcome State Fault Refusal :=
  .next (State.settle (State.whenRunning f (s.advance dt)))

/-- An event at the inputs, which reaches the part whether it works or not. -/
def happensAtInputs (dt : Nat) (f : State → State) (s : State) : Host.Outcome State Fault Refusal :=
  .next (State.settle (f (s.advance dt)))

end Sys2Proof.Machine
end

