-- ==== Sys2Proof/Machine/Windows.lean ====
section
/-! DEFINITION. The Window Controller: grid pattern, clock window, own window, adopted window (05). -/

namespace Sys2Proof.Machine

/-! ### The pattern (R82 to R84) -/

/-- R82: a cared line matches at a sample, given its level at the previous sample if there was one. -/
def lineMatches (c : LineCondition) (previous : Option Bool) (level : Bool) : Bool :=
  match c, previous with
  | .levelHigh, _ => level
  | .levelLow, _ => !level
  | .rising, some p => !p && level
  | .falling, some p => p && !level
  | .either, some p => p != level
  | .rising, none => false
  | .falling, none => false
  | .either, none => false

def allLines : List GridLine := [.g0, .g1, .g2, .g3]

/-- The lines that take part (R82). -/
def caredLines (c : Configuration) : List GridLine := allLines.filter fun l => (quadGet c.grid l).care

/-- The cared lines that match at a sample, in the order G0 to G3. -/
def matchingLines (c : Configuration) (previous : Option Sample) (levels : Quad Bool) : List GridLine :=
  (caredLines c).filter fun l =>
    lineMatches (quadGet c.grid l).condition (previous.map fun p => quadGet p.levels l) (quadGet levels l)

/-- R83: the pattern match of a sample. -/
def patternMatch (c : Configuration) (previous : Option Sample) (levels : Quad Bool) : Bool :=
  match c.mode with
  | .none => false
  | .all =>
    decide (caredLines c ≠ []) && decide ((matchingLines c previous levels).length = (caredLines c).length)
  | .any => decide (matchingLines c previous levels ≠ [])
  | .ranked => decide (matchingLines c previous levels ≠ [])

def LineCondition.isLevel : LineCondition → Bool
  | .levelHigh => true
  | .levelLow => true
  | .rising => false
  | .falling => false
  | .either => false

/-- R84: pattern close at a sample. A sample that is not there counts as not matched. -/
def patternClose (c : Configuration) (previous : Option Sample) (matched : Bool) : Bool :=
  decide (c.mode ≠ .none) && (caredLines c).all (fun l => (quadGet c.grid l).condition.isLevel)
  && !matched && !((previous.map fun p => p.matched).getD false)

/-- R85: the minute is inside the clock window. -/
def insideClock (c : Configuration) (minute : Nat) : Bool :=
  if c.clockStart < c.clockEnd then decide (c.clockStart ≤ minute ∧ minute < c.clockEnd)
  else decide (c.clockStart ≤ minute ∨ minute < c.clockEnd)

/-- R83: a match counts with the clock window disabled, or inside it. -/
def matchCounts (c : Configuration) (matched : Bool) (minute : Nat) : Bool :=
  matched && (!c.clockEnabled || insideClock c minute)

/-! ### The own window (R86 to R91) -/

/-- What a step is made from: the sample just taken and the minute at it (R87). -/
structure StepInput where
  matched : Bool
  previous : Option Sample
  levels : Quad Bool
  minute : Nat
  deriving DecidableEq, Repr

/-- R87: the open condition. -/
def openCondition (c : Configuration) (i : StepInput) : Bool :=
  match c.mode with
  | .none => c.clockEnabled && insideClock c i.minute
  | .all => matchCounts c i.matched i.minute
  | .any => matchCounts c i.matched i.minute
  | .ranked => matchCounts c i.matched i.minute

/-- R87: the close condition. -/
def closeCondition (c : Configuration) (i : StepInput) (exhausted : Bool) : Bool :=
  patternClose c i.previous i.matched || (c.clockEnabled && !insideClock c i.minute) || exhausted

/-- R83: in mode RANKED a counted match sets the held target from the first matching cared line. -/
def heldTargetStep (c : Configuration) (i : StepInput) (held : Nat) : Nat :=
  if c.mode = .ranked ∧ matchCounts c i.matched i.minute = true then
    match matchingLines c i.previous i.levels with
    | l :: _ => quadGet c.levels l
    | [] => held
  else held

/-- R83: the target. -/
def targetOf (c : Configuration) (held : Nat) : Nat :=
  match c.mode with
  | .none => c.baseTarget
  | .all => c.baseTarget
  | .any => c.baseTarget
  | .ranked => held

/-- R91: the budget of an OPEN window. -/
def openBudget (c : Configuration) (held : Nat) : Nat := min (targetOf c held) c.depotLimit

/-- R88: a step from CLOSED. -/
def stepClosed (c : Configuration) (i : StepInput) (w : OwnWindow) : OwnWindow :=
  let held := heldTargetStep c i w.heldTarget
  if openCondition c i then
    { w with
      state := .opened
      sequence := (w.sequence + 1) % 16
      maxDuration := c.maxRounds
      exhausted := false
      windDown := 0
      heldTarget := held
      budget := openBudget c held }
  else { w with budget := 0, heldTarget := held }

/-- R89: a step from OPEN. -/
def stepOpen (c : Configuration) (i : StepInput) (w : OwnWindow) : OwnWindow :=
  let held := heldTargetStep c i w.heldTarget
  let count := w.maxDuration - 1
  let exhausted := w.exhausted || decide (count = 0)
  if closeCondition c i exhausted then
    { w with
      state := .winding
      base := w.budget
      windDown := c.windDown
      maxDuration := count
      exhausted := exhausted
      heldTarget := held
      budget := w.budget * c.windDown / c.windDown }
  else
    { w with maxDuration := count, exhausted := exhausted, heldTarget := held, budget := openBudget c held }

/-- R90: a step from WINDING. -/
def stepWinding (c : Configuration) (i : StepInput) (w : OwnWindow) : OwnWindow :=
  let held := heldTargetStep c i w.heldTarget
  if openCondition c i && !w.exhausted then
    { w with state := .opened, windDown := 0, heldTarget := held, budget := openBudget c held }
  else
    let remaining := w.windDown - 1
    if remaining = 0 then
      { w with state := .closed, windDown := 0, base := 0, heldTarget := held, budget := 0 }
    else
      { w with windDown := remaining, heldTarget := held, budget := w.base * remaining / c.windDown }

/-- R86: the step, from the state the window held before the sample. -/
def stepWindow (c : Configuration) (i : StepInput) (w : OwnWindow) : OwnWindow :=
  match w.state with
  | .closed => stepClosed c i w
  | .opened => stepOpen c i w
  | .winding => stepWinding c i w

/-- The window sample at an anchor: at a station with the strap, the sample in JOINING, MEMBER and HOLDING
(R81) and the step in MEMBER and HOLDING (R86). The minute is the clock's at the anchor (R79). -/
def State.windowSample (anchor : Instant) (s : State) : State :=
  match s.control.configuration with
  | some c =>
    if s.control.signalStrap = some true ∧ s.control.state.runs = true then
      let previous := s.window.current
      let levels := s.inputs.grid
      let matched := patternMatch c previous levels
      let input : StepInput :=
        { matched := matched, previous := previous, levels := levels, minute := clockMinute (s.clockAt anchor) }
      { s with
        window :=
          { s.window with
            previous := previous
            current := some { levels := levels, matched := matched }
            own := if s.control.state.joined then stepWindow c input s.window.own else s.window.own } }
    else s
  | none => s

/-! ### The adopted window (R94 to R97) -/

/-- R94: the window taken from the authority; a CLOSED window has budget 0. -/
def adoptedFrom (own : Option Nat) (ownWindow : OwnWindow) (authority : Option Nat) (t : PeerTable)
    (held : SignalPart) : SignalPart :=
  match authority with
  | some k =>
    if some k = own then ⟨ownWindow.state, ownWindow.sequence, ownWindow.budget⟩
    else
      match (t.entry k).signal with
      | some p => { p with budget := if p.state = .closed then 0 else p.budget }
      | none => ⟨.closed, held.sequence, 0⟩
  | none => ⟨.closed, held.sequence, 0⟩

/-- R96 and R97: at most one of the three window notices. -/
def windowNotices (held adopted : SignalPart) : List Notice :=
  if adopted.state = .closed then
    if held.state = .closed then [] else [numbered .windowClosed held.sequence]
  else if held.state = .closed ∨ held.sequence ≠ adopted.sequence then
    [numbered .windowOpened adopted.sequence]
  else if adopted.state = .opened ∧ held.budget ≠ adopted.budget then
    [numbered .targetChanged adopted.budget]
  else []

/-- The adopted window is fixed, with its notices (R94, R96, R97). -/
def State.adoptWindow (s : State) : State × List Notice :=
  let held := s.window.adopted
  let adopted := adoptedFrom s.control.number s.window.own s.peers.authority s.peers held
  ({ s with window := { s.window with adopted := adopted } }, windowNotices held adopted)

end Sys2Proof.Machine
end

