-- ==== Sys2Proof/Machine/Requests.lean ====
section
/-! DEFINITION. The post link: its transactions, the checks of a request, and each request in turn (09). -/

namespace Sys2Proof.Machine

/-! ### SDO -/

/-- Free bytes: what the spec leaves open of SDO (log entry 8). -/
def freeBytes (from_ n : Nat) : List Byte := (List.range n).map fun i => Config.sdoUnstated (from_ + i)

/-- The bytes of a transaction on SDO: 00h during the selector, then what was sent (R153). -/
def State.sends (bytes : List Byte) (s : State) : State := { s with link := { s.link with sdo := 0x00 :: bytes } }

/-- 00h during the selector, then the stated bytes, then `n` bytes the spec does not state (R153). -/
def State.sendsOpen (stated : List Byte) (n : Nat) (s : State) : State :=
  State.sends (stated ++ freeBytes s.freeIndex n) { s with freeIndex := s.freeIndex + n }

/-- The first `clocked` bytes of a record, 00h beyond its end (R158). -/
def clockedOut (record : List Byte) (clocked : Nat) : List Byte :=
  (record ++ List.replicate clocked 0x00).take clocked

/-! ### The requests, after their checks -/

/-- R24: the cause set START makes from the filtered PLUG and STOP. -/
def startCauses (i : Inputs) : HoldCauses :=
  { noBus := !i.plug, noProfile := i.plug, noReading := i.plug, lapse := false, stop := i.stop,
    withdrawn := false }

/-- R177: what START leaves of a kept list: no disabled kind, no PEER_CHANGED of the own number. -/
def purgedNotices (c : Configuration) (own : Nat) (q : List NoticeEntry) : List NoticeEntry :=
  q.filter fun e => c.enables e.kind && !(decide (e.kind = .peerChanged) && decide (e.subject = some own))

/-- START taken (R23, R24, R19, R55, R64, R79, R98, R177): everything it latches and starts, and the window
sample of round 0; it stays in flight. -/
def State.takeStart (straps : Straps) (fields : List Byte) (s : State) : State :=
  let c := startConfiguration fields
  let n := straps.number.toNat
  State.windowSample s.now
    { s with
      control :=
        { s.control with
          state := .joining
          causes := startCauses s.inputs
          number := some n
          signalStrap := some straps.signal
          configuration := some c
          peerHeard := false
          isolated := false
          leaveAttempts := 0
          withdrawalPending := false
          announcementBuilt := false }
      line := { s.line with receiver := .awaitingIdle, readbackFailures := 0 }
      timer :=
        { s.timer with
          anchor := some s.now
          fixed := false
          slotPending := true
          allocationPending := true
          allocations := 0
          outcome := .noAllocation }
      peers := { s.peers with heard := stationBit n }
      plan := some (startPlan n c.plan)
      window := { s.window with clock := startClock fields, own := { s.window.own with heldTarget := 0 } }
      notices := purgedNotices c n s.notices }

/-- PROFILE after its checks (R100, R162). -/
def State.takeProfile (fields : List Byte) (s : State) : State :=
  if s.inputs.plug then
    let s := { s with readiness := { s.readiness with profile := some (profileOf fields) } }
    let s := s.setCauses { s.control.causes with noProfile := false }
    let s := s.computeOffer.floorTest
    s.complete (kindCode .profile) .ok (be16 (s.readiness.floor.getD 0) ++ be16 s.readiness.offerEnergy)
  else s.complete (kindCode .profile) .noBus []

/-- The deviation test of a reading, with its notice and the announced figure (R111, R148). -/
def State.deviationTest (measured : Nat) (s : State) : State :=
  let moved :=
    deviationStep s.readiness.deviationCount s.readiness.deviationFlag (deviates measured s.setpoint.applied)
  let t :=
    State.refreshAnnounced
      { s with readiness := { s.readiness with deviationCount := moved.1, deviationFlag := moved.2 } }
  if moved.2 && !s.readiness.deviationFlag then t.notice (numbered .stageDeviation measured) else t

/-- READING after its checks (R101, R163). -/
def State.takeReading (fields : List Byte) (s : State) : State :=
  let r := readingOf fields
  let s := { s with readiness := { s.readiness with reading := some r, lapseReported := false } }
  let s := s.setCauses { s.control.causes with noReading := false, lapse := false }
  let s := (s.deviationTest r.measured).computeOffer
  let reached := s.floorReached
  let s := s.floorTest
  s.complete (kindCode .reading) .ok (readingFields s reached)

/-- AVAIL(available) (R36, R164). -/
def State.takeAvailable (s : State) : State :=
  (s.setCauses { s.control.causes with withdrawn := false }).complete (kindCode .avail) .ok []

/-- AVAIL(withdrawn) (R36, R164): it stays in flight, waiting for a frame built from now on (R37). -/
def State.takeWithdrawn (s : State) : State :=
  let s := (s.setCauses { s.control.causes with withdrawn := true }).zeroExport
  { s with control := { s.control with withdrawalPending := true, announcementBuilt := false } }

/-- TAKE_NOTICE (R167, R175): the head entry, or EMPTY. -/
def State.takeHead (s : State) : State :=
  match s.notices with
  | e :: es => State.complete (kindCode .takeNotice) .ok (noticeRecord e) { s with notices := es }
  | [] => s.complete (kindCode .takeNotice) .empty []

/-- PEER (R63, R168). -/
def State.answerPeer (fields : List Byte) (s : State) : State :=
  let k := fieldByte fields 0
  s.complete (kindCode .peer) .ok (peerFields k (s.peers.entry k))

/-- STATUS (R169). -/
def State.answerStatus (s : State) : State := s.complete (kindCode .status) .ok (statusFields s)

/-- LEAVE taken (R38): it stays in flight. -/
def State.takeLeave (s : State) : State :=
  State.zeroExport
    { s with control := { s.control with state := .leaving, leaveAttempts := 0, isolated := false } }

/-- RESTART (R42, R166): the queue is emptied. -/
def State.takeRestart (s : State) : State := s.offlineWith (kindCode .restart) [] []

/-- A request that passed its checks, handed to the block that owns it. -/
def State.handle (k : RequestKind) (straps : Straps) (fields : List Byte) (s : State) : State :=
  match k with
  | .start => s.takeStart straps fields
  | .profile => s.takeProfile fields
  | .reading => s.takeReading fields
  | .avail => if fieldByte fields 0 = 0 then s.takeAvailable else s.takeWithdrawn
  | .takeNotice => s.takeHead
  | .peer => s.answerPeer fields
  | .status => s.answerStatus
  | .leave => s.takeLeave
  | .restart => s.takeRestart

/-! ### Writing a request (R155, R156) -/

/-- What the four checks of R156 give: a refusal with its fields, or the kind to hand on. -/
inductive CheckResult where
  | refuse (r : ResultCode) (fields : List Byte)
  | pass (k : RequestKind)
  deriving DecidableEq, Repr

/-- The four checks, in order (R156). -/
def checkRequest (kind len : Byte) (fields : List Byte) (st : StationState) : CheckResult :=
  match kindOfByte kind with
  | none => .refuse .unknown []
  | some k =>
    if ¬ (len.toNat = kindLength k ∧ fields.length = len.toNat) then .refuse .length []
    else if kindAllowed k st = false then .refuse .state []
    else
      match firstBad (fieldChecks k fields) with
      | some n => .refuse .range [byte n]
      | none => .pass k

/-- The write is taken as a request: BUSY set, DONE cleared, the response box emptied, the record in the
request box (R155). -/
def State.openRequest (kind len : Byte) (fields : List Byte) (s : State) : State :=
  { s with
    link :=
      { s.link with
        request := some { kind := kind, len := len, fields := fields }
        response := none
        busy := true
        done := false } }

/-- A write of three bytes or more, the selector counted (R155, R156). -/
def State.takeWrite (straps : Straps) (kind len : Byte) (fields : List Byte) (s : State) : State :=
  if s.link.busy then { s with link := { s.link with overrun := true } }
  else
    match checkRequest kind len fields s.control.state with
    | .refuse r fs => (s.openRequest kind len fields).complete kind r fs
    | .pass k => (s.openRequest kind len fields).handle k straps fields

/-- A whole WRITE REQUEST transaction with its bytes after the selector; one of fewer than three bytes in all
is discarded (R155). -/
def State.writeTransaction (straps : Straps) (bytes : List Byte) (s : State) : State :=
  let t := s.sendsOpen [] bytes.length
  match bytes with
  | kind :: len :: fields => t.takeWrite straps kind len fields
  | [_] => t
  | [] => t

/-- The straps of a request that does not read them. -/
def noStraps : Straps := ⟨0, false⟩

/-! ### Reading back (R158, R159) -/

/-- The record a READ RESPONSE sends (R158). -/
def State.answer (s : State) : List Byte :=
  if s.link.done then
    match s.link.response with
    | some r => r.bytes
    | none => emptyRecord
  else emptyRecord

/-- A READ RESPONSE transaction (R158): DONE is cleared and the box emptied where DONE was set and every byte of the
record was clocked out. -/
def State.readBack (clocked : Nat) (s : State) : State :=
  let t := s.sends (clockedOut s.answer clocked)
  if s.link.done = true ∧ s.answer.length ≤ clocked then
    { t with link := { t.link with response := none, done := false } }
  else t

/-- A READ FLAGS transaction (R159): OVERRUN is cleared where the byte was clocked out whole. -/
def State.readFlags (clocked : Nat) (s : State) : State :=
  match clocked with
  | 0 => s.sends []
  | n + 1 =>
    let t := s.sendsOpen [s.flagsByte] n
    { t with link := { t.link with overrun := false } }

/-! ### A transaction by its selector (R153) -/

/-- R153: a whole transaction: its selector decides what the bytes on SDI after it mean. Where it names no transaction,
SDO carries 00h throughout and no item changes; a read takes no notice of SDI but its length. -/
def State.transact (straps : Straps) (selector : Byte) (bytes : List Byte) (s : State) : State :=
  match transactionOf selector with
  | some .writeRequest => s.writeTransaction straps bytes
  | some .readResponse => s.readBack bytes.length
  | some .readFlags => s.readFlags bytes.length
  | none => s.sends (List.replicate bytes.length 0x00)

/-- The bytes on SDI of a transaction that does not read them. -/
def unread (n : Nat) : List Byte := List.replicate n 0x00

/-! ### The commands -/

/-- IGNORED_TRANSACTION (R153): the transaction of its selector. One that names a transaction is ill-formed here, and
is that transaction with 00h on SDI (log entry 17). -/
def execIgnoredTransaction (dt : Nat) (selector : Byte) (clocked : Nat) (s : State) :
    Host.Outcome State Fault Refusal :=
  happens dt (fun s => s.transact noStraps selector (unread clocked)) s

/-- WRITE_REQUEST (R155, R156): any bytes at all. -/
def execWriteRequest (dt : Nat) (straps : Straps) (bytes : List Byte) (s : State) :
    Host.Outcome State Fault Refusal :=
  happens dt (fun s => s.transact straps 0x57#8 bytes) s

/-- READ_RESPONSE (R158). -/
def execReadResponse (dt : Nat) (clocked : Nat) (s : State) : Host.Outcome State Fault Refusal :=
  happens dt (fun s => s.transact noStraps 0x52#8 (unread clocked)) s

/-- READ_FLAGS (R159). -/
def execReadFlags (dt : Nat) (clocked : Nat) (s : State) : Host.Outcome State Fault Refusal :=
  happens dt (fun s => s.transact noStraps 0x46#8 (unread clocked)) s

/-- START (R23, R161). -/
def execStart (dt : Nat) (straps : Straps) (len : Byte) (fields : List Byte) (s : State) :
    Host.Outcome State Fault Refusal :=
  happens dt (fun s => s.transact straps 0x57#8 (kindCode .start :: len :: fields)) s

/-- PROFILE (R100, R162). -/
def execProfile (dt : Nat) (len : Byte) (fields : List Byte) (s : State) : Host.Outcome State Fault Refusal :=
  happens dt (fun s => s.transact noStraps 0x57#8 (kindCode .profile :: len :: fields)) s

/-- READING (R101, R163). -/
def execReading (dt : Nat) (len : Byte) (fields : List Byte) (s : State) : Host.Outcome State Fault Refusal :=
  happens dt (fun s => s.transact noStraps 0x57#8 (kindCode .reading :: len :: fields)) s

/-- AVAIL_AVAILABLE (R36, R164). -/
def execAvailAvailable (dt : Nat) (len : Byte) (extra : List Byte) (s : State) :
    Host.Outcome State Fault Refusal :=
  happens dt (fun s => s.transact noStraps 0x57#8 (kindCode .avail :: len :: 0x00 :: extra)) s

/-- AVAIL_WITHDRAWN (R36, R164). -/
def execAvailWithdrawn (dt : Nat) (len : Byte) (extra : List Byte) (s : State) :
    Host.Outcome State Fault Refusal :=
  happens dt (fun s => s.transact noStraps 0x57#8 (kindCode .avail :: len :: 0x01 :: extra)) s

/-- TAKE_NOTICE (R167). -/
def execTakeNotice (dt : Nat) (len : Byte) (fields : List Byte) (s : State) :
    Host.Outcome State Fault Refusal :=
  happens dt (fun s => s.transact noStraps 0x57#8 (kindCode .takeNotice :: len :: fields)) s

/-- PEER (R168). -/
def execPeer (dt : Nat) (len : Byte) (fields : List Byte) (s : State) : Host.Outcome State Fault Refusal :=
  happens dt (fun s => s.transact noStraps 0x57#8 (kindCode .peer :: len :: fields)) s

/-- STATUS (R169). -/
def execStatus (dt : Nat) (len : Byte) (fields : List Byte) (s : State) : Host.Outcome State Fault Refusal :=
  happens dt (fun s => s.transact noStraps 0x57#8 (kindCode .status :: len :: fields)) s

/-- LEAVE (R38, R165). -/
def execLeave (dt : Nat) (len : Byte) (fields : List Byte) (s : State) : Host.Outcome State Fault Refusal :=
  happens dt (fun s => s.transact noStraps 0x57#8 (kindCode .leave :: len :: fields)) s

/-- RESTART (R42, R166). -/
def execRestart (dt : Nat) (len : Byte) (fields : List Byte) (s : State) : Host.Outcome State Fault Refusal :=
  happens dt (fun s => s.transact noStraps 0x57#8 (kindCode .restart :: len :: fields)) s

end Sys2Proof.Machine
end

