-- ==== Sys2Proof/Machine/Round.lean ====
section
/-! DEFINITION. The round: ROUND_TIMER_EXPIRY, OWN_SLOT_OPENING, ALLOCATION_POINT, RUN_COMPLETION (01, 03, 07). -/

namespace Sys2Proof.Machine

/-! ### Opening a round (R14, R15, R135, R136) -/

/-- R135: the ending round counts as a miss: it had no allocation point or its run did not complete, and the
station runs allocations. -/
def State.missedRun (s : State) : Bool :=
  s.control.state.runs
  && (match s.timer.outcome with
      | .noAllocation => true
      | .aborted => true
      | .running => true
      | .noRun => false
      | .completed => false)

/-- R135, R136: the run-miss count moves by the report; reaching 2 zeroes grant and export. -/
def State.reportRound (s : State) : State :=
  if s.missedRun then
    let misses := min 2 (s.timer.runMisses + 1)
    let t := { s with timer := { s.timer with runMisses := misses } }
    if misses = 2 ∧ s.timer.runMisses < 2 then
      State.noticeAll s.grantZeroed (State.zeroExport { t with grant := { t.grant with ownGrant := 0 } })
    else t
  else s

/-- A round opens at an anchor (R14, R15): the count goes up, the timer restarts, the events of the round are
to be raised, the report goes to the Grant Engine, and the window sample is raised. A frame that already waits for
the line (a mark honoured while unfixed can come so early) goes on waiting from the opening as it was raised in the
round before, and may start in this one (R10, R14 and R16 leave it open; DESIGN CHOICE, log entry 21). -/
def State.openRound (anchor : Instant) (s : State) : State :=
  let s :=
    { s with
      timer :=
        { s.timer with
          anchor := some anchor
          roundCount := (s.timer.roundCount + 1) % 65536
          slotPending := true
          allocationPending := true } }
  let s := s.reportRound
  State.windowSample anchor { s with timer := { s.timer with outcome := .noAllocation } }

/-- A mark can start: no frame waits or is being sent. -/
def Transmitter.free : Transmitter → Bool
  | .silent => true
  | .mark _ => true
  | .waiting _ _ => false
  | .sending _ _ => false

/-- R14: an opening mark at the expiry instant, in JOINING, MEMBER, HOLDING and LEAVING with the line idle. -/
def State.sendMark (at_ : Instant) (lineIdle : Bool) (s : State) : State :=
  if lineIdle && s.control.state.watches && s.line.transmitter.free then
    { s with line := { s.line.stopped at_ with transmitter := .mark at_ } }
  else s

/-- R14: the round timer expires, once its instant has come. -/
def State.timerExpires (lineIdle : Bool) (s : State) : State :=
  match s.timer.anchor with
  | some a =>
    let e := after a (Config.timerExpiry s.number)
    if e ≤ s.now then (s.openRound e).sendMark e lineIdle else s
  | none => s

/-- ROUND_TIMER_EXPIRY (R14). -/
def execRoundTimerExpiry (dt : Nat) (lineIdle : Bool) (s : State) : Host.Outcome State Fault Refusal :=
  happens dt (fun s => s.timerExpires lineIdle) s

/-! ### The own slot (R65, R39, R10) -/

/-- The frame is built and handed: sent at once on an idle line, else it waits (R10, R65, R72, R39). It is the
announcement of an AVAIL(withdrawn) taken before it (R37, R164). -/
def State.handFrame (anchor opening : Instant) (st : AnnouncedState) (lineIdle : Bool) (s : State) : State :=
  let f := s.ownFrame anchor st
  { s with
    plan := s.planBuilt
    control :=
      { s.control with
        leaveAttempts := if st = .leaving then min 3 (s.control.leaveAttempts + 1) else s.control.leaveAttempts
        announcementBuilt := true }
    line :=
      { s.line.stopped opening with transmitter := if lineIdle then .sending opening f else .waiting opening f } }

/-- The own slot opening is raised once in a round, once its instant has come (R13, R18). -/
def State.slotOpens (lineIdle : Bool) (s : State) : State :=
  match s.timer.anchor with
  | some a =>
    let opening := after a (Config.slotOpening s.number)
    if s.timer.slotPending = true ∧ opening ≤ s.now then
      let t := { s with timer := { s.timer with slotPending := false } }
      match announcedState s.control.state with
      | some st => t.handFrame a opening st lineIdle
      | none => t
    else s
  | none => s

/-- OWN_SLOT_OPENING (R65). -/
def execOwnSlotOpening (dt : Nat) (lineIdle : Bool) (s : State) : Host.Outcome State Fault Refusal :=
  happens dt (fun s => s.slotOpens lineIdle) s

/-! ### The allocation point (R9, R26, R41, R61, R94, R103, R108, R119, R128) -/

/-- R9: the corrupt count is copied and set to 0; LINE_ERRORS at 4 or more. -/
def State.copyCorrupt (s : State) : State × List Notice :=
  ({ s with line := { s.line with lastCorrupt := s.line.corrupt, corrupt := 0 } },
   if 4 ≤ s.line.corrupt then [numbered .lineErrors s.line.corrupt] else [])

/-- R57: the census, once the adopted window is fixed; `held` is the window adopted before. -/
def State.fixCensus (held : SignalPart) (s : State) : State :=
  { s with
    peers := { s.peers with census := censusOf held s.window.adopted s.peers.census s.peers.liveCount } }

/-- Some peer entry is FRESH. -/
def State.hearsFresh (s : State) : Bool :=
  decide (0 < countWhere (fun k e => isPeer s.control.number k && decide (e.presence = .fresh)) 0 s.peers.entries)

/-- Some peer entry is FRESH or STALE. -/
def State.hearsPresent (s : State) : Bool :=
  decide (0 < countWhere (fun k e => isPeer s.control.number k && e.presence.isPresent) 0 s.peers.entries)

/-- R41: the peer-heard mark and the isolated condition. -/
def State.judgeIsolation (s : State) : State × List Notice :=
  let heard := s.control.peerHeard || s.hearsFresh
  let s := { s with control := { s.control with peerHeard := heard } }
  if s.control.state.joined then
    if s.control.isolated then
      if s.hearsFresh then
        ({ s with control := { s.control with isolated := false } }, [numbered .lineRestored s.peers.liveCount])
      else (s, [])
    else if heard && !s.hearsPresent then
      ({ s with control := { s.control with isolated := true } }, [numbered .isolated s.peers.census])
    else (s, [])
  else (s, [])

/-- R103, R108: the computation of the allocation point and its floor-reached test. -/
def State.offerAtAllocation (s : State) : State × List Notice :=
  let s := s.computeOffer
  (s.holdFloor, if s.floorReached then [s.floorNotice] else [])

/-- R119, R128: in JOINING, MEMBER and HOLDING a view is frozen, the split test made and a run started; in the
other states the interval of the frame sent ends all the same. -/
def State.freezeView (s : State) : State × List Notice :=
  match s.control.configuration with
  | some c =>
    if s.control.state.runs then
      let v := s.roundView c
      let differing := if previousRun s.grant.digestRound v.round then v.differing s.grant.digest else 0
      ({ s with
         grant :=
           { s.grant with
             view := some v, splitSeen := decide (0 < differing), runStatus := .inFlight, sentOffer := none }
         timer := { s.timer with outcome := .running }
         readiness := { s.readiness with holdAfterView := false } },
       if 0 < differing then [numbered .viewSplit differing] else [])
    else ({ s with grant := { s.grant with sentOffer := none }, timer := { s.timer with outcome := .noRun } }, [])
  | none => (s, [])

/-- R26: the join at the second allocation point after START. -/
def State.joinIfDue (s : State) : State :=
  if s.control.state = .joining ∧ s.timer.allocations = 2 then
    let t :=
      { s with
        control := { s.control with state := if s.control.causes.isEmpty then .member else .holding } }
    t.completeInFlight .ok t.strapFields
  else s

/-- Puts notices into a list at a position. -/
def putAt (k : Nat) (ns base : List Notice) : List Notice := base.take k ++ ns ++ base.drop k

/-- The order in which the notices of one allocation point reach the queue: those of the Peer Table, the Window
Controller and the Grant Engine in that order, each other block's at a place the command gives (R53, R96,
R128, R173). -/
def arrivalOrder (o : Arrival) (ordered floor isolation lineErrors : List Notice) : List Notice :=
  putAt o.lineErrors lineErrors (putAt o.isolation isolation (putAt o.floorReached floor ordered))

/-- Everything an allocation point does, the whole of it with the state it found (R26, R61). -/
def State.allocate (order : Arrival) (s : State) : State :=
  let s :=
    { s with
      timer := { s.timer with allocationPending := false, allocations := min 2 (s.timer.allocations + 1) } }
  let lineStep := s.copyCorrupt
  let peerStep := lineStep.1.agePeers
  let windowStep := peerStep.1.adoptWindow
  let isolationStep := (windowStep.1.fixCensus s.window.adopted).judgeIsolation
  let offerStep := isolationStep.1.offerAtAllocation
  let viewStep := offerStep.1.freezeView
  State.noticeAll
    (arrivalOrder order (peerStep.2 ++ windowStep.2 ++ viewStep.2) offerStep.2 isolationStep.2 lineStep.2)
    viewStep.1.joinIfDue

/-- The allocation point is raised once in a round, once its instant has come (R13, R18). -/
def State.allocationPoint (order : Arrival) (s : State) : State :=
  match s.timer.anchor with
  | some a =>
    if s.timer.allocationPending = true ∧ after a Config.allocationInstant ≤ s.now then s.allocate order else s
  | none => s

/-- ALLOCATION_POINT (R61). -/
def execAllocationPoint (dt : Nat) (order : Arrival) (s : State) : Host.Outcome State Fault Refusal :=
  happens dt (fun s => s.allocationPoint order) s

/-! ### Completion (R131, R109, R140, R141) -/

/-- R109: a view frozen after floor hold was set, with own offer power above 0, clears it. -/
def State.settleFloorHold (v : RoundView) (s : State) : State :=
  if s.readiness.holdAfterView = false ∧ 0 < v.ownOffer.power then
    { s with readiness := { s.readiness with floorHold := false } }
  else s

/-- R140, R141: applied export after a completion. -/
def State.exportTarget (grant : Nat) (s : State) : Nat :=
  match s.control.state, s.control.configuration with
  | .member, some c =>
    if s.readiness.floorHold then 0
    else if grant ≤ s.setpoint.applied then grant
    else min grant (s.setpoint.applied + c.rampStep)
  | _, _ => 0

/-- R131: the completion of the run of a view, in its order. -/
def State.completeRun (v : RoundView) (s : State) : State :=
  let g := v.ownGrant s.grant.splitSeen
  let s := s.settleFloorHold v
  let t :=
    { s with
      grant :=
        { s.grant with
          ownGrant := g, digest := v.grantDigest, digestRound := some v.round, runStatus := .completed }
      timer := { s.timer with runMisses := 0, outcome := .completed } }
  let t := if g = s.grant.ownGrant then t else t.notice (grantNotice g)
  t.setApplied (s.exportTarget g)

/-- A run in flight completes, at most 100 ms after its allocation point (R123, R131). -/
def State.runCompletes (s : State) : State :=
  match s.grant.runStatus, s.grant.view with
  | .inFlight, some v => if s.now ≤ after v.frozenAt Config.runLimit then s.completeRun v else s
  | _, _ => s

/-- RUN_COMPLETION (R131). -/
def execRunCompletion (dt : Nat) (s : State) : Host.Outcome State Fault Refusal :=
  happens dt State.runCompletes s

end Sys2Proof.Machine
end

