-- ==== Sys2Proof/Machine/Line.lean ====
section
/-! DEFINITION. The depot line: what is heard (TRANSMISSION_END, LINE_IDLE_AFTER_START) and what becomes of the
own transmissions (FRAME_START_DEFERRED, SLOT_START_DEADLINE, FRAME_SENT, READBACK_MISMATCH) (01, 02). -/

namespace Sys2Proof.Machine

/-! ### Hearing -/

/-- R9: one more in the corrupt count, which stays at 255. -/
def State.countCorrupt (s : State) : State :=
  { s with line := { s.line with corrupt := min 255 (s.line.corrupt + 1) } }

/-- A transmission from one instant to now is received: the receiver was on and the own transmitter silent
throughout (R2, R11, R19). One that ends at the very instant at which the own sending starts does not overlap it:
R10 starts the frame when the line has become idle, and R1 ends the transmission at that instant. It is received
whichever of the two commands stands first in the queue (DEDUCED, log entry 22). -/
def LineInterface.receives (l : LineInterface) (start now : Instant) : Bool :=
  (match l.receiver with
   | .on since => decide (since ≤ start)
   | .off => false
   | .awaitingIdle => false)
  && (match l.transmitter.span with
      | some (own, e) => decide (now ≤ own ∨ e < start)
      | none => true)
  && (match l.ownUntil with
      | some e => decide (e < start)
      | none => true)

/-- R15, R16: a heard mark is honoured, opening a round at its instant, or stray. -/
def State.heardMark (start : Instant) (s : State) : State :=
  match s.timer.anchor with
  | some a =>
    if s.timer.fixed = false then
      let t := s.abortRun
      State.openRound start { t with timer := { t.timer with fixed := true } }
    else if after a Config.markGuard ≤ start then s.openRound start
    else s.countCorrupt
  | none => s

/-- R17, R18: the anchor moves; a run in flight is aborted (R133), and an own slot opening not yet raised
whose new time has passed is dropped. A frame that already waits for the line keeps the opening as it was raised, from
which its 5 ms run on (R10 and R18 leave it open; DESIGN CHOICE, log entry 21). -/
def State.reanchor (anchor : Instant) (s : State) : State :=
  let t := s.abortRun
  { t with
    timer :=
      { t.timer with
        anchor := some anchor
        fixed := true
        slotPending :=
          t.timer.slotPending && decide (s.now ≤ after anchor (Config.slotOpening s.number)) } }

/-- The difference of two clock figures around the day, the short way (R77). -/
def clockDifference (a b : Nat) : Nat :=
  let d := (a + Config.day - b) % Config.day
  min d (Config.day - d)

/-- R76, R77: a CLOCK rider of a frame that was not out of step is judged when its sender is the authority. -/
def State.judgeClock (f : Frame) (s : State) : State :=
  match f.rider, s.timer.anchor with
  | .clock minute second, some a =>
    if s.peers.authority = some f.station then
      let carried := clockOf minute second
      let size := clockDifference carried (s.clockAt a)
      if size < Config.second then s
      else
        let t :=
          { s with
            window :=
              { s.window with clock := (((carried : Int) + (s.now - a)) % (Config.day : Int)).toNat } }
        if 60 * Config.second < size then t.notice (numbered .clockStepped (size / Config.second)) else t
    else s
  | _, _ => s

/-- R8, R17: a good peer frame is tested against the anchor, stored, and its CLOCK rider judged. -/
def State.deliverPeer (f : Frame) (start : Instant) (s : State) : State :=
  match s.timer.anchor with
  | some a =>
    let implied := start - (Config.slotOpening f.station : Int)
    let size := (implied - a).natAbs
    if size ≤ Config.stepTolerance then (s.storeFrame f).judgeClock f
    else if s.timer.fixed = false ∨ size < Config.outOfStep then
      ((s.reanchor implied).storeFrame f).judgeClock f
    else s.countCorrupt.storeFrame f
  | none => s

/-- R27: a good frame bearing the own number. -/
def State.duplicateHeard (grantFirst : Bool) (s : State) : State :=
  if s.control.state.watches then s.enterFaulted .heard grantFirst else s

/-- R8: the delivery of a good frame. -/
def State.deliver (f : Frame) (start : Instant) (grantFirst : Bool) (s : State) : State :=
  if some f.station = s.control.number then s.duplicateHeard grantFirst else s.deliverPeer f start

/-- R2, R7: the treatment of a transmission that was received. -/
def State.hear (r : Reception) (start : Instant) (grantFirst : Bool) (s : State) : State :=
  match classify r with
  | .mark => s.heardMark start
  | .fragment => s
  | .corrupt => s.countCorrupt
  | .candidate chars =>
    match readFrame chars with
    | some f => s.deliver f start grantFirst
    | none => s.countCorrupt

/-- A transmission has ended; its start instant lies its own length before now (R1, R2). -/
def State.transmissionEnds (r : Reception) (grantFirst : Bool) (s : State) : State :=
  let start := s.now - (r.lasted : Int)
  if s.line.receives start s.now then s.hear r start grantFirst else s

/-- TRANSMISSION_END (R2). -/
def execTransmissionEnd (dt : Nat) (reception : Reception) (grantFirst : Bool) (s : State) :
    Host.Outcome State Fault Refusal :=
  happens dt (fun s => s.transmissionEnds reception grantFirst) s

/-- R19: the receiver begins to receive what starts from now on. -/
def State.lineWentIdle (s : State) : State :=
  match s.line.receiver with
  | .awaitingIdle => { s with line := { s.line with receiver := .on s.now } }
  | .off => s
  | .on _ => s

/-- LINE_IDLE_AFTER_START (R19). -/
def execLineIdleAfterStart (dt : Nat) (s : State) : Host.Outcome State Fault Refusal :=
  happens dt State.lineWentIdle s

/-! ### The own frame's outcome (R10, R12, R37, R39, R40) -/

/-- R40, R165: LEAVE completes with OK; the field says whether the LEAVE frame was sent. The Notice Queue is
kept. -/
def State.leaveCompletes (frameSent : Bool) (s : State) : State :=
  s.offlineWith (kindCode .leave) [flagByte frameSent] s.notices

/-- The frame is a LEAVE frame of a LEAVE in progress. -/
def State.isLeaveFrame (f : Frame) (s : State) : Bool :=
  decide (f.core.state = .leaving) && decide (s.control.state = .leaving)

/-- R37, R164: a SENT frame that carries WITHDRAWN and was built after the AVAIL in flight was taken completes it. -/
def State.withdrawalSent (f : Frame) (s : State) : State :=
  if s.control.withdrawalPending && s.control.announcementBuilt && f.core.causes.withdrawn then
    State.completeInFlight .ok [] { s with control := { s.control with withdrawalPending := false } }
  else s

/-- Outcome SENT (R10, R12, R37, R39, R120). -/
def State.outcomeSent (f : Frame) (s : State) : State :=
  let t :=
    { s with
      line := { s.line.stopped s.now with readbackFailures := 0 }
      grant := { s.grant with sentOffer := some ⟨f.core.offerPower, f.core.offerEnergy⟩ } }
  if s.isLeaveFrame f then t.leaveCompletes true else t.withdrawalSent f

/-- R39: a LEAVE frame that was not SENT: the third attempt completes LEAVE all the same. -/
def State.leaveNotSent (f : Frame) (s : State) : State :=
  if s.isLeaveFrame f && decide (3 ≤ s.control.leaveAttempts) then s.leaveCompletes false else s

/-- Outcome CUT (R11, R12, R28, R39). -/
def State.outcomeCut (f : Frame) (grantFirst : Bool) (s : State) : State :=
  let failures := min 3 (s.line.readbackFailures + 1)
  let t := { s with line := { s.line.stopped s.now with readbackFailures := failures } }
  if failures = 3 ∧ s.control.state.watches = true then t.enterFaulted .readback grantFirst
  else t.leaveNotSent f

/-- FRAME_SENT (R10): the last character has gone out and read back, once its end has come (R1, log entry 3). -/
def execFrameSent (dt : Nat) (s : State) : Host.Outcome State Fault Refusal :=
  happens dt
    (fun s => match s.line.transmitter with
      | .sending start f => if after start f.duration ≤ s.now then s.outcomeSent f else s
      | .silent => s
      | .waiting _ _ => s
      | .mark _ => s) s

/-- READBACK_MISMATCH (R11): a frame with bits still to go is CUT (log entry 3); a mark just stops. -/
def execReadbackMismatch (dt : Nat) (grantFirst : Bool) (s : State) : Host.Outcome State Fault Refusal :=
  happens dt
    (fun s => match s.line.transmitter with
      | .sending start f => if s.now < after start f.duration then s.outcomeCut f grantFirst else s
      | .mark _ => { s with line := s.line.stopped s.now }
      | .silent => s
      | .waiting _ _ => s) s

/-- FRAME_START_DEFERRED (R10): the line became idle within 5 ms of the own slot opening as it was raised (log
entry 21). -/
def execFrameStartDeferred (dt : Nat) (s : State) : Host.Outcome State Fault Refusal :=
  happens dt
    (fun s => match s.line.transmitter with
      | .waiting opening f =>
        if s.now ≤ after opening Config.startLimit then
          { s with line := { s.line with transmitter := .sending s.now f } }
        else s
      | .silent => s
      | .sending _ _ => s
      | .mark _ => s) s

/-- SLOT_START_DEADLINE (R10): 5 ms have gone by since the own slot opening as it was raised (log entry 21) with the
line busy, and the outcome is BLOCKED. -/
def execSlotStartDeadline (dt : Nat) (s : State) : Host.Outcome State Fault Refusal :=
  happens dt
    (fun s => match s.line.transmitter with
      | .waiting opening f =>
        if after opening Config.startLimit ≤ s.now then
          State.leaveNotSent f { s with line := { s.line with transmitter := .silent } }
        else s
      | .silent => s
      | .sending _ _ => s
      | .mark _ => s) s

end Sys2Proof.Machine
end

