-- ==== Sys2Proof/Machine/Pins.lean ====
section
/-! DEFINITION. The discrete inputs, the reading lapse and the STAGE period (02, 05, 06, 08). -/

namespace Sys2Proof.Machine

/-- R33, R113: what a fall of PLUG does in JOINING, MEMBER, HOLDING and LEAVING. -/
def State.plugFell (s : State) : State :=
  if s.control.state.watches then
    let t := { s with readiness := s.readiness.discarded }
    (t.setCauses { s.control.causes with noBus := true }).computeOffer.zeroExport
  else s

/-- R33: what a rise of PLUG does in the same states. -/
def State.plugRose (s : State) : State :=
  if s.control.state.watches then
    (s.setCauses { s.control.causes with noBus := false, noProfile := true, noReading := true }).zeroExport
  else s

/-- STOP_CHANGED (R34). -/
def stopNotice (active : Bool) : Notice := { kind := .stopChanged, subject := none, value := .stop active }

/-- R34: STOP became active; in FAULTED the notice alone is made (R30). -/
def State.stopPressed (s : State) : State :=
  if s.control.state.watches then
    ((s.setCauses { s.control.causes with stop := true }).zeroExport).notice (stopNotice true)
  else if s.control.state = .faulted then s.notice (stopNotice true)
  else s

/-- R34: STOP was released. -/
def State.stopFreed (s : State) : State :=
  if s.control.state.watches then
    (s.setCauses { s.control.causes with stop := false }).notice (stopNotice false)
  else if s.control.state = .faulted then s.notice (stopNotice false)
  else s

/-- PLUG_FALL (R33, R113): the filtered level falls from high to low. -/
def execPlugFall (dt : Nat) (s : State) : Host.Outcome State Fault Refusal :=
  happensAtInputs dt
    (fun s =>
      if s.inputs.plug then State.whenRunning State.plugFell { s with inputs := { s.inputs with plug := false } }
      else s) s

/-- PLUG_RISE (R33): the filtered level rises from low to high. -/
def execPlugRise (dt : Nat) (s : State) : Host.Outcome State Fault Refusal :=
  happensAtInputs dt
    (fun s =>
      if s.inputs.plug then s
      else State.whenRunning State.plugRose { s with inputs := { s.inputs with plug := true } }) s

/-- STOP_ACTIVE (R34): the filtered input becomes active. -/
def execStopActive (dt : Nat) (s : State) : Host.Outcome State Fault Refusal :=
  happensAtInputs dt
    (fun s =>
      if s.inputs.stop then s
      else State.whenRunning State.stopPressed { s with inputs := { s.inputs with stop := true } }) s

/-- STOP_RELEASE (R34): the filtered input is released. -/
def execStopRelease (dt : Nat) (s : State) : Host.Outcome State Fault Refusal :=
  happensAtInputs dt
    (fun s =>
      if s.inputs.stop then State.whenRunning State.stopFreed { s with inputs := { s.inputs with stop := false } }
      else s) s

/-- GRID_INPUT_CHANGE (R81): the new level is read at the next window sample. -/
def execGridInputChange (dt : Nat) (line : GridLine) (level : Bool) (s : State) :
    Host.Outcome State Fault Refusal :=
  happensAtInputs dt
    (fun s => { s with inputs := { s.inputs with grid := quadSet s.inputs.grid line level } }) s

/-- R110: the lapse report, once the reading age has passed the lapse time; one report per reading. -/
def State.readingLapses (s : State) : State :=
  match s.readiness.reading, s.control.configuration with
  | some r, some c =>
    if s.readiness.lapseReported = false ∧ c.lapseTime * Config.second < r.age then
      let t := { s with readiness := { s.readiness with lapseReported := true } }
      let t := t.notice (numbered .readingLapsed c.lapseTime)
      if s.control.state.watches then (t.setCauses { s.control.causes with lapse := true }).zeroExport else t
    else s
  | _, _ => s

/-- READING_LAPSE (R110). -/
def execReadingLapse (dt : Nat) (s : State) : Host.Outcome State Fault Refusal :=
  happens dt State.readingLapses s

/-- A STAGE period starts, and a rise of the duty made during the one before takes effect on the line (R146). Periods
are 1,000 µs apart (R145): before the running one is over none starts, and one that comes later lies where the
thousands put it. The first one gives the phase, which the spec leaves open (DESIGN CHOICE, log entry 16). -/
def State.periodStarts (s : State) : State :=
  match s.setpoint.periodStart with
  | none => { s with setpoint := { s.setpoint with lineDuty := s.setpoint.duty, periodStart := some s.now } }
  | some p =>
    if after p Config.stagePeriod ≤ s.now then
      { s with
        setpoint :=
          { s.setpoint with
            lineDuty := s.setpoint.duty
            periodStart := some (s.now - (s.now - p) % (Config.stagePeriod : Int)) } }
    else s

/-- STAGE_PERIOD_START (R145, R146). -/
def execStagePeriodStart (dt : Nat) (s : State) : Host.Outcome State Fault Refusal :=
  happens dt State.periodStarts s

end Sys2Proof.Machine
end

