-- ==== Sys2Proof/Machine/Supply.lean ====
section
/-! DEFINITION. The supply and RESET: POWER_ON, POWER_LOSS, RESET_ASSERT, RESET_RELEASE. -/

namespace Sys2Proof.Machine

/-- POWER_ON (R21, R79, R98): every block at its power-on values, the depot clock at 00:00:00. -/
def execPowerOn (dt : Nat) (s : State) : Host.Outcome State Fault Refusal :=
  happensAtInputs dt
    (fun s => { s.powerOnValues with inputs := { s.inputs with powered := true } }) s

/-- POWER_LOSS (R170): a request in flight ends with no response and the part stops. Its items are at their
power-on values meanwhile, which nothing can see (DESIGN CHOICE, log entry 7). -/
def execPowerLoss (dt : Nat) (s : State) : Host.Outcome State Fault Refusal :=
  happensAtInputs dt
    (fun s => { s.powerOnValues with inputs := { s.inputs with powered := false } }) s

/-- RESET_ASSERT (R21, R20, R151, R160): the part holds every item at its reset values, the outputs
released. -/
def execResetAssert (dt : Nat) (s : State) : Host.Outcome State Fault Refusal :=
  happensAtInputs dt
    (fun s => { s.powerOnValues with inputs := { s.inputs with resetLow := true } }) s

/-- RESET_RELEASE (R21, R79): OFFLINE with reset values, the depot clock running from 00:00:00. A RESET that
is not held low has no release. -/
def execResetRelease (dt : Nat) (s : State) : Host.Outcome State Fault Refusal :=
  happensAtInputs dt
    (fun s =>
      if s.inputs.resetLow then { s.powerOnValues with inputs := { s.inputs with resetLow := false } } else s) s

end Sys2Proof.Machine
end

