-- ==== Sys2Proof/Machine/Dispatch.lean ====
section
/-! DEFINITION. One arm per command: each is one direct call of the command's meaning. -/

namespace Sys2Proof.Machine

def exec (i : Instr) (s : State) : Host.Outcome State Fault Refusal :=
  match i with
  | .powerOn dt => Sys2Proof.Machine.execPowerOn dt s
  | .resetAssert dt => Sys2Proof.Machine.execResetAssert dt s
  | .resetRelease dt => Sys2Proof.Machine.execResetRelease dt s
  | .ignoredTransaction dt selector clocked => Sys2Proof.Machine.execIgnoredTransaction dt selector clocked s
  | .writeRequest dt straps bytes => Sys2Proof.Machine.execWriteRequest dt straps bytes s
  | .readResponse dt clocked => Sys2Proof.Machine.execReadResponse dt clocked s
  | .readFlags dt clocked => Sys2Proof.Machine.execReadFlags dt clocked s
  | .start dt straps len fields => Sys2Proof.Machine.execStart dt straps len fields s
  | .profile dt len fields => Sys2Proof.Machine.execProfile dt len fields s
  | .reading dt len fields => Sys2Proof.Machine.execReading dt len fields s
  | .availAvailable dt len extra => Sys2Proof.Machine.execAvailAvailable dt len extra s
  | .availWithdrawn dt len extra => Sys2Proof.Machine.execAvailWithdrawn dt len extra s
  | .takeNotice dt len fields => Sys2Proof.Machine.execTakeNotice dt len fields s
  | .peer dt len fields => Sys2Proof.Machine.execPeer dt len fields s
  | .status dt len fields => Sys2Proof.Machine.execStatus dt len fields s
  | .leave dt len fields => Sys2Proof.Machine.execLeave dt len fields s
  | .restart dt len fields => Sys2Proof.Machine.execRestart dt len fields s
  | .transmissionEnd dt reception grantFirst => Sys2Proof.Machine.execTransmissionEnd dt reception grantFirst s
  | .roundTimerExpiry dt lineIdle => Sys2Proof.Machine.execRoundTimerExpiry dt lineIdle s
  | .ownSlotOpening dt lineIdle => Sys2Proof.Machine.execOwnSlotOpening dt lineIdle s
  | .allocationPoint dt order => Sys2Proof.Machine.execAllocationPoint dt order s
  | .runCompletion dt => Sys2Proof.Machine.execRunCompletion dt s
  | .frameStartDeferred dt => Sys2Proof.Machine.execFrameStartDeferred dt s
  | .slotStartDeadline dt => Sys2Proof.Machine.execSlotStartDeadline dt s
  | .frameSent dt => Sys2Proof.Machine.execFrameSent dt s
  | .readbackMismatch dt grantFirst => Sys2Proof.Machine.execReadbackMismatch dt grantFirst s
  | .plugFall dt => Sys2Proof.Machine.execPlugFall dt s
  | .plugRise dt => Sys2Proof.Machine.execPlugRise dt s
  | .stopActive dt => Sys2Proof.Machine.execStopActive dt s
  | .stopRelease dt => Sys2Proof.Machine.execStopRelease dt s
  | .gridInputChange dt line level => Sys2Proof.Machine.execGridInputChange dt line level s
  | .readingLapse dt => Sys2Proof.Machine.execReadingLapse dt s
  | .lineIdleAfterStart dt => Sys2Proof.Machine.execLineIdleAfterStart dt s
  | .powerLoss dt => Sys2Proof.Machine.execPowerLoss dt s
  | .stagePeriodStart dt => Sys2Proof.Machine.execStagePeriodStart dt s

end Sys2Proof.Machine
end

