-- ==== Sys2Proof/WellFormed.lean ====
section
/-! DEFINITION. Which commands the spec's own words admit. Most operands are any value of their type; the two
checks are on operands that another row of the table would name. -/

namespace Sys2Proof

/-- An IGNORED_TRANSACTION has a selector that names no transaction (R153); the levels of a TRANSMISSION_END are those of
one transmission (R1). -/
def Instr.wellFormed : Instr → Bool
  | .ignoredTransaction _ selector _ => (transactionOf selector).isNone
  | .transmissionEnd _ r _ => r.wellFormed
  | .powerOn _ | .resetAssert _ | .resetRelease _ | .writeRequest _ _ _ | .readResponse _ _ | .readFlags _ _
  | .start _ _ _ _ | .profile _ _ _ | .reading _ _ _ | .availAvailable _ _ _ | .availWithdrawn _ _ _
  | .takeNotice _ _ _ | .peer _ _ _ | .status _ _ _ | .leave _ _ _ | .restart _ _ _
  | .roundTimerExpiry _ _ | .ownSlotOpening _ _ | .allocationPoint _ _ | .runCompletion _
  | .frameStartDeferred _ | .slotStartDeadline _ | .frameSent _ | .readbackMismatch _ _
  | .plugFall _ | .plugRise _ | .stopActive _ | .stopRelease _ | .gridInputChange _ _ _ | .readingLapse _
  | .lineIdleAfterStart _ | .powerLoss _ | .stagePeriodStart _ => true

end Sys2Proof
end

