-- ==== Sys2Proof/Safety.lean ====
section
/-! DEFINITION. What is meant by a safe SL3210: the invariants that every step keeps, and the words the
statements use for commands and transactions. -/

namespace Sys2Proof.Machine

/-! ### Words for statements -/

/-- The microseconds a command carries. -/
def elapsed : Instr → Nat
  | .powerOn dt | .resetAssert dt | .resetRelease dt | .ignoredTransaction dt _ _ | .writeRequest dt _ _
  | .readResponse dt _ | .readFlags dt _ | .start dt _ _ _ | .profile dt _ _ | .reading dt _ _
  | .availAvailable dt _ _ | .availWithdrawn dt _ _ | .takeNotice dt _ _ | .peer dt _ _ | .status dt _ _
  | .leave dt _ _ | .restart dt _ _ | .transmissionEnd dt _ _ | .roundTimerExpiry dt _ | .ownSlotOpening dt _
  | .allocationPoint dt _ | .runCompletion dt | .frameStartDeferred dt | .slotStartDeadline dt | .frameSent dt
  | .readbackMismatch dt _ | .plugFall dt | .plugRise dt | .stopActive dt | .stopRelease dt
  | .gridInputChange dt _ _ | .readingLapse dt | .lineIdleAfterStart dt | .powerLoss dt
  | .stagePeriodStart dt => dt

/-- Commands that change the supply, RESET or an input pin, whether the part works or not. -/
def reachesInputs : Instr → Bool
  | .powerOn _ | .powerLoss _ | .resetAssert _ | .resetRelease _ | .plugFall _ | .plugRise _ | .stopActive _
  | .stopRelease _ | .gridInputChange _ _ _ => true
  | .ignoredTransaction _ _ _ | .writeRequest _ _ _ | .readResponse _ _ | .readFlags _ _ | .start _ _ _ _
  | .profile _ _ _ | .reading _ _ _ | .availAvailable _ _ _ | .availWithdrawn _ _ _ | .takeNotice _ _ _
  | .peer _ _ _ | .status _ _ _ | .leave _ _ _ | .restart _ _ _ | .transmissionEnd _ _ _
  | .roundTimerExpiry _ _ | .ownSlotOpening _ _ | .allocationPoint _ _ | .runCompletion _
  | .frameStartDeferred _ | .slotStartDeadline _ | .frameSent _ | .readbackMismatch _ _ | .readingLapse _
  | .lineIdleAfterStart _ | .stagePeriodStart _ => false

/-- The state at the end of a WRITE REQUEST of n bytes after the selector, before its effect: time has
passed, and SDO has carried 00h and n bytes the spec does not state (R153, log entry 8). -/
def State.written (dt n : Nat) (s : State) : State := (s.advance dt).sendsOpen [] n

/-- The part works and BUSY is clear: a write is taken as a request (R155). -/
def State.accepts (s : State) : Prop := s.running = true ∧ s.link.busy = false

/-- The link as a completion leaves it: the response in the box, the request box empty, BUSY clear, DONE set
(R157). -/
def PostLink.answered (l : PostLink) (kind : Byte) (r : ResultCode) (fields : List Byte) : PostLink :=
  { l with request := none, response := some { kind := kind, result := r, fields := fields },
           busy := false, done := true }

/-- The link with a request in flight: BUSY set, DONE clear, the response box empty (R155). -/
def PostLink.holding (l : PostLink) (kind len : Byte) (fields : List Byte) : PostLink :=
  { l with request := some { kind := kind, len := len, fields := fields }, response := none,
           busy := true, done := false }

/-- IRQ as its two conditions say of a working part (R160). -/
def irqOf (done : Bool) (queue : List NoticeEntry) : Bool := done || !queue.isEmpty

/-- The notices that a list of them adds to a queue, at a round count, kinds not enabled dropped (R173, R174). -/
def folded (enabled : NoticeKind → Bool) (round : Nat) (ns : List Notice) (q : List NoticeEntry) :
    List NoticeEntry :=
  ns.foldl (fun q n => if enabled n.kind then foldNotice round n q else q) q

/-- Applied export at a value: duty, PERMIT, the line and the announced figure with it (R145 to R148). -/
def SetpointUnit.at_ (u : SetpointUnit) (a : Nat) (cfg : Option Configuration) (r : ReadinessUnit) :
    SetpointUnit :=
  { u with
    applied := a
    announced := announcedFor r a
    duty := stageDuty cfg a
    permit := decide (0 < a)
    lineDuty := min u.lineDuty (stageDuty cfg a) }

/-- What a floor test leaves in t of a state m: from the figures R just computed, the setpoint u, and the notices
made before it (R108). -/
def FloorTested (m t : State) (R : ReadinessUnit) (u : SetpointUnit)
    (before : List Notice) : Prop :=
  if R.offerEnergy = 0 ∧ 0 < u.applied then
    t.readiness = { R with floorHold := true, holdAfterView := true } ∧
    t.setpoint = u.at_ 0 m.control.configuration R ∧
    t.notices =
      folded m.enabled m.timer.roundCount (before ++ [numbered .floorReached (R.estimate.getD 0)]) m.notices
  else
    t.readiness = R ∧ t.setpoint = u ∧ t.notices = folded m.enabled m.timer.roundCount before m.notices

/-- What entry into FAULTED leaves in t of a state m (R29, R134, R20, R151): a request in flight completes, START
with DUPLICATE and its two fields, any other with FAULTED; the grant is 0 and a run in flight abandoned;
applied export is 0; the two notices come in the order the command gives (log entry 9). -/
def EntersFaulted (m t : State) (e : Evidence) (grantFirst : Bool) (line : LineInterface) : Prop :=
  let duplicate : Notice := { kind := .duplicateNumber, subject := none, value := .evidence e }
  let grant : List Notice := if 0 < m.grant.ownGrant then [grantNotice 0] else []
  t.control = { m.control with state := .faulted, withdrawalPending := false, isolated := false } ∧
  t.grant =
    { m.grant with
      ownGrant := 0
      runStatus := if m.grant.runStatus = .inFlight then .abandoned else m.grant.runStatus } ∧
  t.setpoint = m.setpoint.at_ 0 m.control.configuration m.readiness ∧
  t.line = line ∧
  t.notices =
    folded m.enabled m.timer.roundCount (if grantFirst then grant ++ [duplicate] else duplicate :: grant)
      m.notices ∧
  t.link =
    { (match m.link.request with
       | none => m.link
       | some r =>
         if r.kind = kindCode .start then
           m.link.answered r.kind .duplicate
             [byte (m.control.number.getD 0), flagByte (m.control.signalStrap.getD false)]
         else m.link.answered r.kind .faulted []) with
      irq := irqOf t.link.done t.notices } ∧
  t =
    { m with
      control := t.control, grant := t.grant, setpoint := t.setpoint, line := t.line, notices := t.notices
      link := t.link }

/-- OFFLINE after LEAVE: every item at its power-on value but the depot clock and the Notice Queue, which are
kept, and the response box, which holds LEAVE's OK with its field (R40, R165). -/
def LeftTheLine (m : State) (frameSent : Bool) : State :=
  { State.reset with
    inputs := m.inputs
    window := { State.reset.window with clock := m.window.clock }
    notices := m.notices
    link :=
      { State.reset.link with
        response := some { kind := kindCode .leave, result := .ok, fields := [flagByte frameSent] }
        done := true, irq := true, sdo := m.link.sdo }
    now := m.now, freeIndex := m.freeIndex, pending := m.pending }

/-- The allocation point of the round has come when the command's time has passed: the part works at a
configuration, it is still to be raised, and its instant, 1,660 ms after the anchor, is past (R13, R18). -/
def State.atAllocation (s : State) (dt : Nat) (c : Configuration) : Prop :=
  s.running = true ∧ s.control.configuration = some c ∧ s.timer.allocationPending = true ∧
  ∃ a, s.timer.anchor = some a ∧ a + 1660000 ≤ s.now + (dt : Int)

/-! ### Ranges -/

/-- START's fields as it latches them (R171), and where the parts of it lie that the machine's figures rest on. -/
def Configuration.inRange (c : Configuration) : Prop :=
  1 ≤ c.depotLimit ∧ c.depotLimit ≤ 2000 ∧ 1 ≤ c.stageRating ∧ c.stageRating ≤ 150 ∧
  1 ≤ c.rampStep ∧ c.rampStep ≤ 50 ∧ 1 ≤ c.windDown ∧ c.windDown ≤ 60

/-- A station off the line holds no number, strap, configuration or anchor; in every other state it holds all
of them, and its number is 31 or less (R21, R43, R20). -/
def StationWf (s : State) : Prop :=
  (s.control.state = .offline →
    s.control.number = none ∧ s.control.signalStrap = none ∧ s.control.configuration = none ∧
    s.timer.anchor = none ∧ s.plan = none ∧ s.line.receiver = .off) ∧
  (s.control.state ≠ .offline →
    (∃ n, s.control.number = some n ∧ n < 32) ∧ s.control.signalStrap ≠ none ∧
    (∃ c, s.control.configuration = some c ∧ c.inRange) ∧ s.timer.anchor ≠ none ∧ s.plan ≠ none ∧
    s.line.receiver ≠ .off) ∧
  s.timer.roundCount < 65536

/-! ### Invariants -/

/-- MEMBER has no hold cause, HOLDING has one, OFFLINE has none (R31). -/
def CausesFollow (s : State) : Prop :=
  (s.control.state = .member → s.control.causes = .empty) ∧
  (s.control.state = .holding → s.control.causes ≠ .empty) ∧
  (s.control.state = .offline → s.control.causes = .empty)

/-- Export is commanded only in MEMBER, never above the own grant, and the outputs follow it (R142, R145, R147,
R148). -/
def ExportSafe (s : State) : Prop :=
  (s.control.state ≠ .member → s.setpoint.applied = 0) ∧
  s.setpoint.applied ≤ s.grant.ownGrant ∧
  s.setpoint.permit = decide (0 < s.setpoint.applied) ∧
  s.setpoint.duty = stageDuty s.control.configuration s.setpoint.applied ∧
  s.setpoint.lineDuty ≤ s.setpoint.duty ∧
  s.setpoint.announced = announcedFor s.readiness s.setpoint.applied

/-- BUSY is set for exactly the span in which a request is in flight, DONE while a response waits, never both;
and a request is in flight exactly in JOINING, in LEAVING and while a withdrawal waits for its announcement, each
with its own kind (R154, R155, R157). -/
def LinkConsistent (s : State) : Prop :=
  s.link.busy = s.link.request.isSome ∧
  s.link.done = s.link.response.isSome ∧
  ¬(s.link.busy = true ∧ s.link.done = true) ∧
  (s.link.busy = true ↔
    s.control.state = .joining ∨ s.control.state = .leaving ∨ s.control.withdrawalPending = true) ∧
  (s.control.withdrawalPending = true → s.control.state.joined = true) ∧
  (∀ r, s.link.request = some r →
    (s.control.state = .joining ∧ r.kind = kindCode .start) ∨
    (s.control.state = .leaving ∧ r.kind = kindCode .leave) ∨
    (s.control.withdrawalPending = true ∧ r.kind = kindCode .avail))

/-- An entry's fields agree and lie in their ranges: a subject of 31 or less for PEER_CHANGED and for no other
kind, a repeat count of 1 to 255, rounds of 16 bits (R172). -/
def NoticeEntry.wf (e : NoticeEntry) : Prop :=
  (e.kind = .peerChanged ↔ e.subject.isSome = true) ∧ (∀ k, e.subject = some k → k < 32) ∧
  1 ≤ e.repeats ∧ e.repeats ≤ 255 ∧ e.firstRound < 65536 ∧ e.lastRound < 65536

/-- No two entries of one kind and subject, no subject that is the own number, at most 47 entries (R172, R174,
R177). -/
def NoticeQueueWf (s : State) : Prop :=
  (s.notices.map fun e => (e.kind, e.subject)).Nodup ∧
  (∀ e ∈ s.notices, e.wf) ∧
  (∀ n, s.control.number = some n → ∀ e ∈ s.notices, e.subject ≠ some n) ∧
  s.notices.length ≤ 47

/-- An entry never heard holds nothing; an ABSENT one holds no signal part and no rider; counts and ages stay
in their ranges (R44, R51, R52). -/
def PeerEntry.wf (e : PeerEntry) : Prop :=
  (e.core = none → e = PeerEntry.reset) ∧
  (e.presence.isPresent = false → e.signal = none ∧ e.roster = none ∧ e.profile = none ∧
    e.frameSince = false) ∧
  (e.lastHeard.isSome = e.core.isSome) ∧ e.missCount ≤ 8 ∧
  (∀ r, e.roster = some r → r.age ≤ 15) ∧ (∀ p, e.profile = some p → p.age ≤ 15) ∧
  (∀ c, e.core = some c → c.offerPower ≤ 150 ∧ c.offerEnergy ≤ 400 ∧ c.announced ≤ 255) ∧
  (∀ p, e.signal = some p → p.sequence ≤ 15 ∧ p.budget ≤ 2000)

/-- 32 entries, each well-formed, the own one unfilled (R44, R45). -/
def PeerTableWf (s : State) : Prop :=
  s.peers.entries.length = 32 ∧ (∀ e ∈ s.peers.entries, e.wf) ∧
  (∀ n, s.control.number = some n → s.peers.entry n = PeerEntry.reset) ∧
  (s.control.number = none → ∀ e ∈ s.peers.entries, e = PeerEntry.reset)

/-- The census is 0 while the adopted window is CLOSED, and at least the live count otherwise; a CLOSED window,
adopted or own, has budget 0 (R57, R91, R94). -/
def CensusBound (s : State) : Prop :=
  (s.window.own.state = .closed → s.window.own.budget = 0) ∧
  (s.window.adopted.state = .closed → s.peers.census = 0 ∧ s.window.adopted.budget = 0) ∧
  (s.window.adopted.state ≠ .closed → s.peers.liveCount ≤ s.peers.census)

/-- The stage rating, 0 while none is latched. -/
def State.rating (s : State) : Nat :=
  match s.control.configuration with
  | some c => c.stageRating
  | none => 0

/-- Wherever an offer power of the own station is kept, it is no greater than the stage rating, and so is the
grant (R107, R120, R126, R145); the view's peers are not the own station (R119). -/
def RatingBound (s : State) : Prop :=
  s.readiness.offerPower ≤ s.rating ∧
  (∀ o, s.grant.sentOffer = some o → o.power ≤ s.rating) ∧
  (∀ a f, s.line.transmitter = .sending a f → f.core.offerPower ≤ s.rating) ∧
  (∀ a f, s.line.transmitter = .waiting a f → f.core.offerPower ≤ s.rating) ∧
  (∀ v, s.grant.view = some v →
    (∀ o, v.sent = some o → o.power ≤ s.rating) ∧ ∀ r ∈ v.peers, r.number ≠ v.ownNumber) ∧
  s.grant.ownGrant ≤ s.rating

end Sys2Proof.Machine
end

