-- ==== Sys2Proof/Certificates/Slice0/Obligations.lean ====
section
/-! DEFINITION. The statements for the provers. `s.advance dt` is the state once the time a command carries has
passed (TimePasses says what that changes); `State.settle` lets IRQ follow its conditions (IrqFollows). -/

open Sys2Proof Sys2Proof.Machine

/-! ### Steps, time, supply -/

/-- A step with a command at the front of the queue is that command's effect on the state with the rest. The one first-in
first-out queue is the model's DESIGN CHOICE (log entry 1); the spec gives the effects, each step whole and indivisible. -/
def Obligations.StepTakesFrontCommand : Prop :=
  ∀ (c : Instr) (rest : List Instr) (s : State),
    step { s with pending := c :: rest } = exec c { s with pending := rest }

/-- No command faults or is refused, none touches the queue; on an empty queue the part idles (the model's
choice, log entry 1). -/
def Obligations.EveryCommandAnswers : Prop :=
  (∀ (c : Instr) (s : State), ∃ t, exec c s = .next t ∧ t.pending = s.pending) ∧
  (∀ s : State, s.pending = [] → step s = .next s)

/-- What time alone does: the depot clock runs round the day, a held reading's age runs up to 65,535 s, its
tally grows by applied export; out of service, that is without supply or with RESET held low, only the time base goes
on (log entries 2 and 7). -/
def Obligations.TimePasses : Prop :=
  ∀ (dt : Nat) (s : State),
    (s.running = true ↔ s.inputs.powered = true ∧ s.inputs.resetLow = false) ∧
    (s.running = true →
      s.advance dt =
        { s with
          now := s.now + dt
          window := { s.window with clock := (s.window.clock + dt) % 86400000000 }
          readiness :=
            { s.readiness with
              reading :=
                s.readiness.reading.map fun r =>
                  { r with age := min 65535000000 (r.age + dt), tally := r.tally + s.setpoint.applied * dt } } }) ∧
    (s.running = false → s.advance dt = { s with now := s.now + dt })

/-- The values the spec gives for power-on and RESET, block by block. -/
def Obligations.ResetHoldsTheStatedValues : Prop :=
  let s := State.reset
  (s.line.receiver = .off ∧ s.line.transmitter = .silent ∧ s.line.corrupt = 0 ∧ s.line.lastCorrupt = 0 ∧
    s.line.readbackFailures = 0) ∧
  (s.timer.anchor = none ∧ s.timer.roundCount = 0 ∧ s.timer.fixed = false ∧ s.timer.runMisses = 0) ∧
  (s.control.state = .offline ∧ s.control.causes = .empty ∧ s.control.number = none ∧
    s.control.signalStrap = none ∧ s.control.configuration = none ∧ s.control.peerHeard = false ∧
    s.control.isolated = false ∧ s.control.leaveAttempts = 0 ∧ s.control.withdrawalPending = false) ∧
  (s.peers.entries.length = 32 ∧
    (∀ k < 32, (s.peers.entry k).presence = .absent .never ∧ (s.peers.entry k).missCount = 0 ∧
      (s.peers.entry k).frameSince = false ∧ (s.peers.entry k).core = none ∧
      (s.peers.entry k).riderKind = .none ∧ (s.peers.entry k).signal = none ∧
      (s.peers.entry k).roster = none ∧ (s.peers.entry k).profile = none ∧
      (s.peers.entry k).lastHeard = none) ∧
    s.peers.received = 0 ∧ s.peers.heard = 0 ∧ s.peers.liveCount = 0 ∧ s.peers.census = 0 ∧
    s.peers.authority = none) ∧
  s.plan = none ∧
  (s.window.clock = 0 ∧ s.window.current = none ∧ s.window.previous = none ∧ s.window.own.state = .closed ∧
    s.window.own.sequence = 0 ∧ s.window.own.budget = 0 ∧ s.window.own.maxDuration = 0 ∧
    s.window.own.exhausted = false ∧ s.window.own.windDown = 0 ∧ s.window.own.base = 0 ∧
    s.window.own.heldTarget = 0 ∧ s.window.adopted = ⟨.closed, 0, 0⟩) ∧
  (s.readiness.profile = none ∧ s.readiness.reading = none ∧ s.readiness.lapseReported = false ∧
    s.readiness.estimate = none ∧ s.readiness.floor = none ∧ s.readiness.offerEnergy = 0 ∧
    s.readiness.offerPower = 0 ∧ s.readiness.floorHold = false ∧ s.readiness.deviationCount = 0 ∧
    s.readiness.deviationFlag = false) ∧
  (s.grant.view = none ∧ s.grant.ownGrant = 0 ∧ s.grant.digest = 0 ∧ s.grant.digestRound = none ∧
    s.grant.splitSeen = false ∧ s.grant.runStatus = .none) ∧
  (s.setpoint.applied = 0 ∧ s.setpoint.announced = 0 ∧ s.setpoint.duty = 0 ∧ s.setpoint.permit = false) ∧
  (s.link.request = none ∧ s.link.response = none ∧ s.link.busy = false ∧ s.link.done = false ∧
    s.link.overrun = false ∧ s.link.irq = false) ∧
  s.notices = []

/-- POWER_ON, RESET_ASSERT and the RESET_RELEASE of a RESET held low leave every item at its power-on value; only
the inputs, and the model's own items, are as the outside has them. POWER_LOSS: a request in flight ends with no response,
and the part stops. The model's own in this: a RESET that is not held has no release (log entry 3, DEDUCED); the inputs
are kept through POWER_ON and RESET (log entry 5, DESIGN CHOICE); the items whose power-on value the spec does not state
have the model's (log entry 6, DESIGN CHOICE); the items of a part without supply stand at their power-on values (log
entry 7, DESIGN CHOICE). -/
def Obligations.SupplyAndResetGivePowerOnValues : Prop :=
  (∀ (dt : Nat) (s : State),
     let r : State := { State.reset with now := s.now + dt, freeIndex := s.freeIndex, pending := s.pending }
     exec (.powerOn dt) s = .next { r with inputs := { s.inputs with powered := true } } ∧
     exec (.resetAssert dt) s = .next { r with inputs := { s.inputs with resetLow := true } } ∧
     (s.inputs.resetLow = true →
       exec (.resetRelease dt) s = .next { r with inputs := { s.inputs with resetLow := false } }) ∧
     (s.inputs.resetLow = false → exec (.resetRelease dt) s = .next (s.advance dt).settle)) ∧
  (∀ (dt : Nat) (s : State),
     ∃ t, exec (.powerLoss dt) s = .next t ∧
       t.running = false ∧ t.link.request = none ∧ t.link.response = none ∧ t.link.irq = false ∧
       t =
         { State.reset with
           inputs := { s.inputs with powered := false }
           now := s.now + dt, freeIndex := s.freeIndex, pending := s.pending })

/-- In RESET and without supply every command but those of the supply, RESET and the input pins changes no item,
with IRQ released; an input pin's command changes that input alone. For RESET the rules cited say so; that no command has
an effect without supply is the model's choice (log entry 7), and that the input pins are followed in RESET and without
supply is too (log entry 5). -/
def Obligations.NothingHappensOutOfService : Prop :=
  ∀ (c : Instr) (dt : Nat) (s : State), s.running = false →
    let still : State := { s with now := s.now + dt, link := { s.link with irq := false } }
    (reachesInputs c = false → elapsed c = dt → exec c s = .next still) ∧
    exec (.plugFall dt) s = .next { still with inputs := { s.inputs with plug := false } } ∧
    exec (.plugRise dt) s = .next { still with inputs := { s.inputs with plug := true } } ∧
    exec (.stopActive dt) s = .next { still with inputs := { s.inputs with stop := true } } ∧
    exec (.stopRelease dt) s = .next { still with inputs := { s.inputs with stop := false } } ∧
    ∀ l b, exec (.gridInputChange dt l b) s =
      .next { still with inputs := { s.inputs with grid := quadSet s.inputs.grid l b } }

/-! ### The post link -/

/-- IRQ is asserted exactly while the part works and DONE is set or the queue holds an entry, after every
command: s.settle is s with IRQ so, and it touches nothing else. -/
def Obligations.IrqFollows : Prop :=
  (∀ s : State,
    s.settle = { s with link := { s.link with irq := s.running && (s.link.done || !s.notices.isEmpty) } }) ∧
  ∀ (c : Instr) (s t : State), exec c s = .next t →
    (t.link.irq = true ↔ t.running = true ∧ (t.link.done = true ∨ t.notices ≠ []))

/-- The selectors: 57h names WRITE REQUEST, 52h READ RESPONSE, 46h READ FLAGS, and no other value a transaction. One of
a selector that names none sends 00h throughout and changes no other item; a write of fewer than three bytes, the
selector counted, changes nothing but SDO; a longer one that ends while BUSY is set sets OVERRUN and nothing else. An
IGNORED_TRANSACTION whose selector names a transaction is ill-formed and is that transaction (the model's choice, log
entry 17). -/
def Obligations.TransactionsWithoutEffect : Prop :=
  (transactionOf 0x57 = some .writeRequest ∧ transactionOf 0x52 = some .readResponse ∧
    transactionOf 0x46 = some .readFlags ∧
    ∀ sel : Byte, sel ≠ 0x57 → sel ≠ 0x52 → sel ≠ 0x46 → transactionOf sel = none) ∧
  ∀ (dt n : Nat) (sel : Byte) (straps : Straps) (bytes : List Byte) (s : State), s.running = true →
    ((Instr.ignoredTransaction dt sel n).wellFormed = true ↔ transactionOf sel = none) ∧
    exec (.ignoredTransaction dt 0x57 n) s = exec (.writeRequest dt noStraps (List.replicate n 0x00)) s ∧
    exec (.ignoredTransaction dt 0x52 n) s = exec (.readResponse dt n) s ∧
    exec (.ignoredTransaction dt 0x46 n) s = exec (.readFlags dt n) s ∧
    (transactionOf sel = none →
      exec (.ignoredTransaction dt sel n) s =
        .next (State.settle
          { s.advance dt with link := { s.link with sdo := 0x00 :: List.replicate n 0x00 } })) ∧
    (bytes.length < 2 →
      exec (.writeRequest dt straps bytes) s = .next (s.written dt bytes.length).settle) ∧
    (2 ≤ bytes.length → s.link.busy = true →
      exec (.writeRequest dt straps bytes) s =
        .next (State.settle
          { s.written dt bytes.length with
            link := { (s.written dt bytes.length).link with overrun := true } }))

/-- Each request command is the WRITE REQUEST of its record; only START reads the straps. -/
def Obligations.RequestCommandsWriteTheirRecord : Prop :=
  ∀ (dt : Nat) (straps : Straps) (len : Byte) (fs : List Byte) (s : State),
    exec (.start dt straps len fs) s = exec (.writeRequest dt straps (0x01 :: len :: fs)) s ∧
    exec (.profile dt len fs) s = exec (.writeRequest dt straps (0x02 :: len :: fs)) s ∧
    exec (.reading dt len fs) s = exec (.writeRequest dt straps (0x03 :: len :: fs)) s ∧
    exec (.availAvailable dt len fs) s = exec (.writeRequest dt straps (0x04 :: len :: 0x00 :: fs)) s ∧
    exec (.availWithdrawn dt len fs) s = exec (.writeRequest dt straps (0x04 :: len :: 0x01 :: fs)) s ∧
    exec (.takeNotice dt len fs) s = exec (.writeRequest dt straps (0x05 :: len :: fs)) s ∧
    exec (.peer dt len fs) s = exec (.writeRequest dt straps (0x06 :: len :: fs)) s ∧
    exec (.status dt len fs) s = exec (.writeRequest dt straps (0x07 :: len :: fs)) s ∧
    exec (.leave dt len fs) s = exec (.writeRequest dt straps (0x08 :: len :: fs)) s ∧
    exec (.restart dt len fs) s = exec (.writeRequest dt straps (0x09 :: len :: fs)) s

/-- The four checks of a request taken, in order, and the response of the first that fails: nothing but the
link changes. A request that passes all four is handed on. With it the tables the checks read: the nine kinds, their
lengths, the states that take each, each kind's field ranges in the order of the record (START's three checks over more
than one field among them), what the number of the first field out of range is, and when checkRequest, the word of the
statements below, passes a request. -/
def Obligations.RequestChecksInOrder : Prop :=
  (∀ b : Byte,
    kindOfByte b =
      [none, some .start, some .profile, some .reading, some .avail, some .takeNotice, some .peer,
        some .status, some .leave, some .restart].getD b.toNat none) ∧
  ([.start, .profile, .reading, .avail, .takeNotice, .peer, .status, .leave, .restart] : List RequestKind).map
    kindLength = [49, 9, 5, 1, 0, 1, 0, 0, 0] ∧
  (∀ (k : RequestKind) (st : StationState),
    kindAllowed k st = true ↔
      (k = .start → st = .offline) ∧
      (k = .profile ∨ k = .reading ∨ k = .avail ∨ k = .leave → st = .member ∨ st = .holding)) ∧
  (∀ oks : List Bool,
    (firstBad oks = none ↔ ∀ ok ∈ oks, ok = true) ∧
    ∀ n, firstBad oks = some n ↔
      ∃ i, n = i + 1 ∧ oks[i]? = some false ∧ ∀ j < i, oks[j]? = some true) ∧
  (∀ fs : List Byte,
    let b (i : Nat) : Nat := (fs.getD i 0).toNat
    let w (i : Nat) : Nat := 256 * b i + b (i + 1)
    let inside (lo n hi : Nat) : Bool := decide (lo ≤ n ∧ n ≤ hi)
    let grid (g : Nat) : Bool :=
      decide (g / 4 % 16 = 0 ∧ g % 4 ≠ 0 ∧ ¬(g / 64 % 2 = 0 ∧ g % 4 = 3))
    let entry (i : Nat) : Bool :=
      decide (i < b 33 → (1 ≤ b (34 + 3 * i) ∧ b (34 + 3 * i) ≤ 3) ∧
        (1 ≤ b (35 + 3 * i) ∧ b (35 + 3 * i) ≤ 16) ∧ b (36 + 3 * i) < b (35 + 3 * i))
    fieldChecks .start fs =
      [inside 1 (w 0) 2000, inside 1 (b 2) 150, inside 1 (b 3) 50, inside 4 (b 4) 60, inside 0 (w 5) 1439,
       grid (b 7), grid (b 8), grid (b 9), grid (b 10), inside 0 (b 11) 3, inside 0 (w 12) 2000,
       inside 0 (w 14) 2000, inside 0 (w 16) 2000, inside 0 (w 18) 2000, inside 0 (w 20) 2000,
       inside 0 (b 22) 1, inside 0 (w 23) 1439, inside 0 (w 25) 1439 && decide (w 25 ≠ w 23),
       inside 30 (w 27) 10800, inside 1 (b 29) 60, decide (b 30 ≤ 1), inside 0 (b 33) 4,
       entry 0, entry 1, entry 2, entry 3, inside 0 (w 46) 1439, inside 0 (b 48) 59] ∧
    fieldChecks .profile fs =
      [inside 40 (w 0) 400, inside 0 (w 2) 1439, inside 0 (w 4) 400, inside 0 (b 6) 100, inside 10 (b 7) 90,
       inside 1 (b 8) 150] ∧
    fieldChecks .reading fs =
      [inside 0 (w 0) 1000, decide (-40 ≤ (fs.getD 2 0).toInt ∧ (fs.getD 2 0).toInt ≤ 70), inside 0 (b 3) 150,
       true] ∧
    fieldChecks .avail fs = [inside 0 (b 0) 1] ∧ fieldChecks .peer fs = [inside 0 (b 0) 31] ∧
    fieldChecks .takeNotice fs = [] ∧ fieldChecks .status fs = [] ∧ fieldChecks .leave fs = [] ∧
    fieldChecks .restart fs = []) ∧
  (∀ (kind len : Byte) (fs : List Byte) (st : StationState) (k : RequestKind),
    checkRequest kind len fs st = .pass k ↔
      kindOfByte kind = some k ∧ len.toNat = kindLength k ∧ fs.length = len.toNat ∧ kindAllowed k st = true ∧
      firstBad (fieldChecks k fs) = none) ∧
  ∀ (dt : Nat) (straps : Straps) (kind len : Byte) (fs : List Byte) (s : State), s.accepts →
    let m := s.written dt (fs.length + 2)
    let refused (r : ResultCode) (out : List Byte) : Prop :=
      exec (.writeRequest dt straps (kind :: len :: fs)) s =
        .next (State.settle { m with link := m.link.answered kind r out })
    (kindOfByte kind = none → refused .unknown []) ∧
    ∀ k, kindOfByte kind = some k →
      (¬(len.toNat = kindLength k ∧ fs.length = len.toNat) → refused .length []) ∧
      (len.toNat = kindLength k → fs.length = len.toNat →
        (kindAllowed k s.control.state = false → refused .state []) ∧
        (kindAllowed k s.control.state = true →
          (∀ n, firstBad (fieldChecks k fs) = some n → refused .range [byte n]) ∧
          (firstBad (fieldChecks k fs) = none →
            exec (.writeRequest dt straps (kind :: len :: fs)) s =
              .next (State.settle
                (State.handle k straps fs { m with link := m.link.holding kind len fs })))))

/-- START taken: everything R23 and R24 list, with the configuration, the enable set and the depot clock read from its
fields; the round timer and the receiver as R19 has them, the rider plan given or, where none is, the default plan, the
window sample of round 0 at a signal station, and START in flight. -/
def Obligations.StartEntersJoining : Prop :=
  ∀ (dt : Nat) (straps : Straps) (len : Byte) (fs : List Byte) (s : State), s.accepts →
    checkRequest (kindCode .start) len fs s.control.state = .pass .start →
    let m := s.written dt (fs.length + 2)
    let b (i : Nat) : Nat := (fs.getD i 0).toNat
    let w (i : Nat) : Nat := 256 * b i + b (i + 1)
    let grid (g : Nat) : GridSpec :=
      { care := decide (128 ≤ g)
        condition :=
          if g / 64 % 2 = 0 then (if g % 4 = 1 then .levelHigh else .levelLow)
          else if g % 4 = 1 then .rising else if g % 4 = 2 then .falling else .either }
    let entry (i : Nat) : PlanEntry :=
      { kind := if b (34 + 3 * i) = 1 then .roster else if b (34 + 3 * i) = 2 then .profile else .clock
        period := b (35 + 3 * i), offset := b (36 + 3 * i) }
    let c : Configuration :=
      { depotLimit := w 0, stageRating := b 2, rampStep := b 3, lapseTime := b 4, windowEnd := w 5
        grid := ⟨grid (b 7), grid (b 8), grid (b 9), grid (b 10)⟩
        mode :=
          if b 11 = 0 then .none else if b 11 = 1 then .all else if b 11 = 2 then .any else .ranked
        baseTarget := w 12, levels := ⟨w 14, w 16, w 18, w 20⟩
        clockEnabled := decide (b 22 = 1), clockStart := w 23, clockEnd := w 25, maxRounds := w 27
        windDown := b 29
        noticeEnable := BitVec.ofNat 17 (65536 * b 30 + 256 * b 31 + b 32)
        plan := (List.range (b 33)).map entry }
    let n := straps.number.toNat
    ∃ t, exec (.start dt straps len fs) s = .next t ∧
      t.control =
        { state := .joining
          causes :=
            { noBus := !s.inputs.plug, noProfile := s.inputs.plug, noReading := s.inputs.plug,
              lapse := false, stop := s.inputs.stop, withdrawn := false }
          number := some n, signalStrap := some straps.signal, configuration := some c
          peerHeard := false, isolated := false, leaveAttempts := 0, withdrawalPending := false
          announcementBuilt := false } ∧
      t.line = { s.line with receiver := .awaitingIdle, readbackFailures := 0 } ∧
      t.timer =
        { s.timer with
          anchor := some m.now, fixed := false, slotPending := true, allocationPending := true
          allocations := 0, outcome := .noAllocation } ∧
      t.peers = { s.peers with heard := BitVec.ofNat 32 (2 ^ n) } ∧
      t.plan =
        some ((if c.plan.isEmpty then [⟨.clock, 4, 0⟩, ⟨.roster, 2, n % 2⟩, ⟨.profile, 8, n % 8⟩] else c.plan).map
          fun e => ⟨e, false⟩) ∧
      t.window =
        { m.window with
          clock := 1000000 * (60 * w 46 + b 48)
          own := { s.window.own with heldTarget := 0 }
          current :=
            if straps.signal then some ⟨s.inputs.grid, patternMatch c s.window.current s.inputs.grid⟩
            else s.window.current
          previous := if straps.signal then s.window.current else s.window.previous } ∧
      t.notices =
        s.notices.filter (fun e =>
          c.enables e.kind && !(decide (e.kind = .peerChanged) && decide (e.subject = some n))) ∧
      t.link = { m.link.holding (kindCode .start) len fs with irq := irqOf false t.notices } ∧
      t =
        { m with
          control := t.control, line := t.line, timer := t.timer, peers := t.peers, plan := t.plan
          window := t.window, notices := t.notices, link := t.link }

/-- PROFILE after its checks: with PLUG high its six fields are stored, NO_PROFILE goes, floor and offer are computed,
the floor is tested, and it completes OK with floor and offer energy; with PLUG low it completes NO_BUS and
changes nothing else. -/
def Obligations.ProfileIsTakenWithABus : Prop :=
  ∀ (dt : Nat) (len : Byte) (fs : List Byte) (s : State), s.accepts →
    checkRequest (kindCode .profile) len fs s.control.state = .pass .profile →
    let m := s.written dt (fs.length + 2)
    let b (i : Nat) : Nat := (fs.getD i 0).toNat
    let w (i : Nat) : Nat := 256 * b i + b (i + 1)
    let p : BusProfile :=
      { capacity := w 0, departure := w 2, need := w 4, coldMargin := b 6, hardFloor := b 7, chargeLimit := b 8 }
    let causes := { s.control.causes with noProfile := false }
    let R := ReadinessUnit.computed { m.readiness with profile := some p } causes s.control.configuration
    (s.inputs.plug = true →
      ∃ t, exec (.profile dt len fs) s = .next t ∧
        t.control = (m.setCauses causes).control ∧
        FloorTested m t R m.setpoint [] ∧
        t.link =
          { m.link.answered (kindCode .profile) .ok (be16 (R.floor.getD 0) ++ be16 R.offerEnergy) with
            irq := true } ∧
        t =
          { m with
            control := t.control, readiness := t.readiness, setpoint := t.setpoint, notices := t.notices
            link := t.link }) ∧
    (s.inputs.plug = false →
      exec (.profile dt len fs) s =
        .next (State.settle { m with link := m.link.answered (kindCode .profile) .noBus [] }))

/-- READING after its checks: it is stored with age and tally 0, NO_READING and LAPSE go, the deviation test is
made against applied export, the offer is computed, the floor tested, and it completes OK with its three
fields. -/
def Obligations.ReadingIsTaken : Prop :=
  ∀ (dt : Nat) (len : Byte) (fs : List Byte) (s : State), s.accepts →
    checkRequest (kindCode .reading) len fs s.control.state = .pass .reading →
    let m := s.written dt (fs.length + 2)
    let r : HeldReading :=
      { charge := 256 * (fs.getD 0 0).toNat + (fs.getD 1 0).toNat, temperature := (fs.getD 2 0).toInt
        dischargeLimit := (fs.getD 3 0).toNat, measured := (fs.getD 4 0).toNat, age := 0, tally := 0 }
    let causes := { s.control.causes with noReading := false, lapse := false }
    let d :=
      deviationStep s.readiness.deviationCount s.readiness.deviationFlag
        (deviates r.measured s.setpoint.applied)
    let R :=
      ReadinessUnit.computed
        { m.readiness with
          reading := some r, lapseReported := false, deviationCount := d.1, deviationFlag := d.2 }
        causes s.control.configuration
    ∃ t, exec (.reading dt len fs) s = .next t ∧
      t.control = (m.setCauses causes).control ∧
      FloorTested m t R { m.setpoint with announced := announcedFor R m.setpoint.applied }
        (if d.2 && !s.readiness.deviationFlag then [numbered .stageDeviation r.measured] else []) ∧
      t.link =
        { m.link.answered (kindCode .reading) .ok
            ([byte R.offerPower] ++ be16 R.offerEnergy ++
              [bitsByte [t.readiness.floorHold, d.2,
                decide (R.offerEnergy = 0 ∧ 0 < s.setpoint.applied)]]) with
          irq := true } ∧
      t =
        { m with
          control := t.control, readiness := t.readiness, setpoint := t.setpoint, notices := t.notices
          link := t.link }

/-- AVAIL(available) removes WITHDRAWN and completes at once with OK; where WITHDRAWN was clear it changes nothing
else. AVAIL(withdrawn) adds WITHDRAWN, zeroes applied export, stays in flight and waits for a frame built from now on. -/
def Obligations.AvailMovesTheWithdrawal : Prop :=
  (∀ (dt : Nat) (len : Byte) (extra : List Byte) (s : State), s.accepts →
     checkRequest (kindCode .avail) len (0x00 :: extra) s.control.state = .pass .avail →
     let m := s.written dt (extra.length + 3)
     let q := m.setCauses { s.control.causes with withdrawn := false }
     ∃ t, exec (.availAvailable dt len extra) s = .next t ∧
       t.control = q.control ∧ t.readiness = q.readiness ∧
       (s.control.causes.withdrawn = false → t.control = m.control ∧ t.readiness = m.readiness) ∧
       t.link = { m.link.answered (kindCode .avail) .ok [] with irq := true } ∧
       t = { m with control := t.control, readiness := t.readiness, link := t.link }) ∧
  (∀ (dt : Nat) (len : Byte) (extra : List Byte) (s : State), s.accepts →
     checkRequest (kindCode .avail) len (0x01 :: extra) s.control.state = .pass .avail →
     let m := s.written dt (extra.length + 3)
     let q := m.setCauses { s.control.causes with withdrawn := true }
     ∃ t, exec (.availWithdrawn dt len extra) s = .next t ∧
       t.control = { q.control with withdrawalPending := true, announcementBuilt := false } ∧ t.control.causes.withdrawn = true ∧
       t.readiness = q.readiness ∧
       t.setpoint = m.setpoint.at_ 0 s.control.configuration q.readiness ∧ t.setpoint.applied = 0 ∧
       t.link =
         { m.link.holding (kindCode .avail) len (0x01 :: extra) with irq := irqOf false s.notices } ∧
       t = { m with control := t.control, readiness := t.readiness, setpoint := t.setpoint, link := t.link })

/-- How notices enter the queue: one of a disabled kind, or made while no configuration is latched, is dropped; one whose
kind and subject are queued keeps that entry's place, with its value, the current round as last round and the repeat
count one up, to 255; any other forms an entry at the tail, with repeat count 1 and both rounds the current one.
TAKE_NOTICE removes the head of the queue and returns its record of nine bytes, or completes with EMPTY. -/
def Obligations.TakeNoticeTakesTheHead : Prop :=
  (∀ (s : State) (k : NoticeKind),
    (s.control.configuration = none → s.enabled k = false) ∧
    ∀ c, s.control.configuration = some c → s.enabled k = c.noticeEnable.getLsbD (k.code - 1)) ∧
  (∀ (enabled : NoticeKind → Bool) (round : Nat) (n : Notice) (ns : List Notice) (q : List NoticeEntry),
    let same (e : NoticeEntry) : Prop := e.kind = n.kind ∧ e.subject = n.subject
    folded enabled round [] q = q ∧
    folded enabled round (n :: ns) q = folded enabled round ns (folded enabled round [n] q) ∧
    (enabled n.kind = false → folded enabled round [n] q = q) ∧
    (enabled n.kind = true →
      (∀ i e, q[i]? = some e → same e → (∀ j < i, ∀ e', q[j]? = some e' → ¬same e') →
        folded enabled round [n] q =
          q.set i { e with value := n.value, repeats := min 255 (e.repeats + 1), lastRound := round }) ∧
      ((∀ e ∈ q, ¬same e) →
        folded enabled round [n] q =
          q ++
            [{ kind := n.kind, subject := n.subject, value := n.value, repeats := 1, firstRound := round
               lastRound := round }]))) ∧
  ([.windowOpened, .windowClosed, .targetChanged, .authorityChanged, .grantChanged, .floorReached, .readingLapsed,
    .stageDeviation, .stopChanged, .isolated, .lineRestored, .viewSplit, .duplicateNumber, .runAborted,
    .clockStepped, .lineErrors, .peerChanged] : List NoticeKind).map NoticeKind.code =
      [1, 2, 3, 4, 5, 6, 7, 8, 9, 10, 11, 12, 13, 14, 15, 16, 17] ∧
  (∀ (k : NoticeKind) (n : Nat) (p : Presence),
    numbered k n = ⟨k, none, .number n⟩ ∧ grantNotice n = ⟨.grantChanged, none, .number n⟩ ∧
    peerNotice n p = ⟨.peerChanged, some n, .presence p⟩) ∧
  (∀ e : NoticeEntry,
    let value : Nat :=
      match e.value with
      | .number n => n
      | .authority (some k) => k
      | .authority none => 0xFFFF
      | .presence (.absent _) => 0
      | .presence .fresh => 1
      | .presence .stale => 2
      | .evidence .heard => 1
      | .evidence .readback => 2
      | .stop true => 1
      | .stop false => 0
    let subject : Nat := match e.subject with | some k => k | none => 0xFF
    noticeRecord e =
      [e.kind.code, subject, value / 256, value, e.repeats, e.firstRound / 256, e.firstRound, e.lastRound / 256,
        e.lastRound].map (BitVec.ofNat 8)) ∧
  ∀ (dt : Nat) (s : State), s.accepts →
    let m := s.written dt 2
    (s.notices = [] →
      exec (.takeNotice dt 0x00 []) s =
        .next (State.settle { m with link := m.link.answered (kindCode .takeNotice) .empty [] })) ∧
    (∀ e es, s.notices = e :: es →
      (noticeRecord e).length = 9 ∧
      exec (.takeNotice dt 0x00 []) s =
        .next (State.settle
          { m with
            notices := es
            link := m.link.answered (kindCode .takeNotice) .ok (noticeRecord e) }))

/-- PEER and STATUS are answered in every state while BUSY is clear, with 32 and 33 bytes of fields, and change
nothing but the link. What the fields are, byte by byte: of PEER the entry of the number asked, of STATUS the items of
the blocks, parts and items that are absent as 0. -/
def Obligations.PeerAndStatusAnswer : Prop :=
  (let flag (b : Bool) : Nat := if b then 1 else 0
   let causes (c : HoldCauses) : Nat :=
     flag c.noBus + 2 * flag c.noProfile + 4 * flag c.noReading + 8 * flag c.lapse + 16 * flag c.stop +
       32 * flag c.withdrawn
   let window (w : WindowState) : Nat := match w with | .closed => 0 | .opened => 1 | .winding => 2
   (∀ (k : Nat) (e : PeerEntry),
     let round := e.lastHeard.getD 0
     let core : List Nat :=
       match e.core with
       | none => [0, 0, 0, 0, 0, 0, 0, 0, 0]
       | some c =>
         [(match c.state with | .member => 0 | .holding => 1 | .leaving => 2), causes c.causes, c.offerPower,
           c.offerEnergy / 256, c.offerEnergy, c.announced, c.digest.toNat / 256, c.digest.toNat,
           flag c.digestCurrent]
     let signal : List Nat :=
       match e.signal with
       | none => [0, 0, 0, 0]
       | some p => [window p.state, p.sequence, p.budget / 256, p.budget]
     let roster : List Nat :=
       match e.roster with
       | none => [0, 0, 0, 0, 0]
       | some r =>
         [r.heard.toNat / 16777216, r.heard.toNat / 65536, r.heard.toNat / 256, r.heard.toNat, r.age]
     let profile : List Nat :=
       match e.profile with
       | none => [0, 0, 0, 0, 0]
       | some p => [p.departure / 256, p.departure, p.floor / 256, p.floor, p.age]
     peerFields k e =
       ([k,
         flag e.core.isSome + 2 * flag e.signal.isSome + 4 * flag e.roster.isSome + 8 * flag e.profile.isSome +
           16 * flag e.lastHeard.isSome,
         (match e.presence with | .absent _ => 0 | .fresh => 1 | .stale => 2),
         (match e.presence with
          | .absent .never => 1 | .absent .silent => 2 | .absent .left => 3 | .fresh => 0 | .stale => 0),
         e.missCount, flag e.frameSince, round / 256, round] ++ core ++
         [match e.riderKind with | .none => 0 | .roster => 1 | .profile => 2 | .clock => 3] ++ signal ++ roster ++
         profile).map (BitVec.ofNat 8)) ∧
   ∀ s : State,
     let adopted := s.window.adopted
     let floor := s.readiness.floor.getD 0
     let estimate := s.readiness.estimate.getD 0
     let age := match s.readiness.reading with | some r => r.age / 1000000 | none => 0
     let minute := s.window.clock / 60000000
     statusFields s =
       ([flag s.control.number.isSome + 2 * flag s.readiness.floor.isSome + 4 * flag s.readiness.estimate.isSome +
           8 * flag s.readiness.reading.isSome + 16 * flag s.peers.authority.isSome,
         s.control.number.getD 0, flag (s.control.signalStrap.getD false),
         (match s.control.state with
          | .offline => 0 | .joining => 1 | .member => 2 | .holding => 3 | .leaving => 4 | .faulted => 5),
         causes s.control.causes, s.timer.roundCount / 256, s.timer.roundCount] ++
        [window adopted.state, adopted.sequence, adopted.budget / 256, adopted.budget,
         s.peers.authority.getD 0, s.peers.census, s.peers.liveCount, s.grant.ownGrant] ++
        [s.setpoint.applied, s.setpoint.announced, s.readiness.offerPower, s.readiness.offerEnergy / 256,
         s.readiness.offerEnergy, floor / 256, floor, estimate / 256, estimate, age / 256, age] ++
        [flag s.readiness.floorHold + 2 * flag s.readiness.deviationFlag + 4 * flag s.grant.splitSeen +
           8 * flag s.control.isolated,
         (match s.grant.runStatus with
          | .none => 0 | .inFlight => 1 | .completed => 2 | .aborted => 3 | .abandoned => 4),
         s.timer.runMisses, minute / 256, minute, s.window.clock / 1000000 % 60, s.line.lastCorrupt]).map
         (BitVec.ofNat 8)) ∧
  ∀ (dt : Nat) (k : Byte) (s : State), s.accepts →
    (k.toNat ≤ 31 →
      let m := s.written dt 3
      (peerFields k.toNat (m.peers.entry k.toNat)).length = 32 ∧
      exec (.peer dt 0x01 [k]) s =
        .next (State.settle
          { m with
            link :=
              m.link.answered (kindCode .peer) .ok (peerFields k.toNat (s.peers.entry k.toNat)) })) ∧
    (let m := s.written dt 2
     (statusFields m).length = 33 ∧
     exec (.status dt 0x00 []) s =
       .next (State.settle { m with link := m.link.answered (kindCode .status) .ok (statusFields m) }))

/-- LEAVE enters LEAVING with the attempt count 0, clears isolation, zeroes applied export and stays in
flight. -/
def Obligations.LeaveEntersLeaving : Prop :=
  ∀ (dt : Nat) (s : State), s.accepts → (s.control.state = .member ∨ s.control.state = .holding) →
    let m := s.written dt 2
    exec (.leave dt 0x00 []) s =
      .next (State.settle
        { m with
          control := { s.control with state := .leaving, leaveAttempts := 0, isolated := false }
          setpoint := m.setpoint.at_ 0 s.control.configuration m.readiness
          link := m.link.holding (kindCode .leave) 0x00 [] })

/-- RESTART, in every state while BUSY is clear: every block at its power-on values, the depot clock running on,
the response box with RESTART's OK, IRQ asserted by DONE, the notice queue empty. -/
def Obligations.RestartReturnsPowerOnValues : Prop :=
  ∀ (dt : Nat) (s : State), s.accepts →
    let m := s.written dt 2
    exec (.restart dt 0x00 []) s =
      .next
        { State.reset with
          inputs := s.inputs
          window := { State.reset.window with clock := m.window.clock }
          link :=
            { State.reset.link with
              response := some { kind := kindCode .restart, result := .ok, fields := [] }
              done := true, irq := true, sdo := m.link.sdo }
          now := m.now, freeIndex := m.freeIndex, pending := s.pending }

/-- READ RESPONSE sends the record in the box while DONE is set, else the empty record, 00h beyond its end; where DONE
was set and the whole record went out, DONE is cleared and the box emptied. The result codes are 01h to 09h, a number's
bytes come the most significant first, a flag is 00h or 01h. READ FLAGS sends BUSY, DONE, NOTICE and
OVERRUN in bits 0 to 3 with bits 4 to 7 as 0, and clears OVERRUN when the byte went out whole; cut short before it, it
changes nothing else. Any later bytes are free (log entry 8). -/
def Obligations.ReadsSendTheRecordAndTheFlags : Prop :=
  (([.ok, .unknown, .length, .state, .range, .duplicate, .noBus, .faulted, .empty] : List ResultCode).map resultByte =
      [0x01, 0x02, 0x03, 0x04, 0x05, 0x06, 0x07, 0x08, 0x09] ∧
    (∀ n : Nat, (byte n).toNat = n % 256 ∧ be16 n = [byte (n / 256), byte n]) ∧
    ∀ a b c : Bool,
      let flag (b : Bool) : Nat := if b then 1 else 0
      (flagByte a).toNat = flag a ∧ (bitsByte [a, b, c]).toNat = flag a + 2 * flag b + 4 * flag c) ∧
  (∀ (dt n : Nat) (s : State), s.running = true →
     (∀ r, s.link.done = true → s.link.response = some r →
       let record := [r.kind, resultByte r.result, byte r.fields.length] ++ r.fields
       exec (.readResponse dt n) s =
         .next (State.settle
           { s.advance dt with
             link :=
               { s.link with
                 sdo := 0x00 :: (record ++ List.replicate n 0x00).take n
                 response := if record.length ≤ n then none else s.link.response
                 done := decide (n < record.length) } })) ∧
     (s.link.done = false →
       exec (.readResponse dt n) s =
         .next (State.settle
           { s.advance dt with
             link :=
               { s.link with
                 sdo := 0x00 :: (([0x00, 0x00, 0x00] : List Byte) ++ List.replicate n 0x00).take n } }))) ∧
  (∀ (dt n : Nat) (s : State), s.running = true →
     exec (.readFlags dt 0) s =
       .next (State.settle { s.advance dt with link := { s.link with sdo := [0x00] } }) ∧
     ∃ (t : State) (flags : Byte) (more : List Byte),
       exec (.readFlags dt (n + 1)) s = .next t ∧
       flags.toNat =
         (if s.link.busy then 1 else 0) + (if s.link.done then 2 else 0) +
         (if s.notices.isEmpty then 0 else 4) + (if s.link.overrun then 8 else 0) ∧
       more.length = n ∧
       t.link =
         { s.link with
           overrun := false, sdo := 0x00 :: flags :: more
           irq := irqOf s.link.done s.notices } ∧
       t = { s.advance dt with link := t.link, freeIndex := s.freeIndex + n })

/-! ### The depot line -/

/-- The line is dominant where any station drives it so, else recessive. A character is a dominant start bit, eight data
bits with the least significant first and a recessive stop bit; the receiver reads back whatever characters are sent
back to back, and the transmission ends one recessive character time after the last stop bit. A stop bit sampled
dominant is a framing fault of its character, and a dominant level longer than one character time is one. While the part
sends a frame or a mark it drives its characters' levels from the start instant on, one bit every 625/12 µs (19,200
bit/s), and it drives nothing otherwise. The classes of a received transmission go by its length, its first character and
framing faults. Durations are to the nearest microsecond (log entry 2); that the faulty character is one character is the
model's choice (log entry 23). -/
def Obligations.ClassesOfTransmissions : Prop :=
  (∀ driven : List Level,
    (.dominant ∈ driven → lineLevel driven = .dominant) ∧ (.dominant ∉ driven → lineLevel driven = .recessive)) ∧
  (∀ c : Byte,
    let data (i : Nat) : Level := if c.getLsbD i then .recessive else .dominant
    charLevels c =
      [.dominant, data 0, data 1, data 2, data 3, data 4, data 5, data 6, data 7, .recessive]) ∧
  (∀ cs : List Byte,
    let r := transmission cs
    r.levels = cs.flatMap charLevels ∧ r.chars = cs ∧ r.framingFault = false ∧ (cs ≠ [] → r.wellFormed = true)) ∧
  (∀ r : Reception,
    let exact : Int := 625 * ((r.levels.length + 10 : Nat) : Int)
    12 * (r.lasted : Int) ≤ exact + 6 ∧ exact < 12 * (r.lasted : Int) + 6) ∧
  (∀ (cs : List Byte) (c : Byte) (after : List Level),
    let r : Reception := ⟨cs.flatMap charLevels ++ (charLevels c).take 9 ++ .dominant :: after⟩
    r.framingFault = true ∧ ∃ more, r.chars = cs ++ c :: more) ∧
  (∀ (before after : List Level) (n : Nat), 10 < n →
    (⟨before ++ List.replicate n .dominant ++ after⟩ : Reception).framingFault = true) ∧
  (∀ (s : State) (start : Instant) (cs : List Byte),
    ((∃ f, s.line.transmitter = .sending start f ∧ cs = f.chars) ∨
      (s.line.transmitter = .mark start ∧ cs = [0x4D, 0x4D, 0xB2])) →
    (s.now < start → s.driving = .recessive) ∧
    ∀ k : Nat, 625 * (k : Int) ≤ 12 * (s.now - start) → 12 * (s.now - start) < 625 * ((k : Int) + 1) →
      s.driving = ((cs.flatMap charLevels)[k]?).getD .recessive) ∧
  (∀ s : State,
    (s.line.transmitter = .silent ∨ ∃ opening f, s.line.transmitter = .waiting opening f) →
    s.driving = .recessive) ∧
  ∀ r : Reception,
    (r.chars = [0x4D, 0x4D, 0xB2] → r.framingFault = false → classify r = .mark) ∧
    (r.chars.length < 4 → ¬(r.chars = [0x4D, 0x4D, 0xB2] ∧ r.framingFault = false) →
      classify r = .fragment) ∧
    (4 ≤ r.chars.length → r.chars.head? = some 0x96 → r.chars.length ≤ 22 → r.framingFault = false →
      classify r = .candidate r.chars) ∧
    (4 ≤ r.chars.length →
      (r.chars.head? ≠ some 0x96 ∨ 22 < r.chars.length ∨ r.framingFault = true) → classify r = .corrupt)

/-- The length of a frame by its flags: 12 characters, plus 5 with the signal part, plus 5 for a ROSTER or PROFILE
rider and 4 for a CLOCK rider, each part's tag in place: of every frame sent, and of every candidate that is good. -/
def Obligations.FrameLengthsAndTags : Prop :=
  let fits (cs : List Byte) : Prop :=
    let flags := cs.getD 2 0
    let signal := if flags.getLsbD 7 then 5 else 0
    let rider := flags.toNat / 16 % 4
    cs.length = 12 + signal + [0, 5, 5, 4].getD rider 0 ∧
    (flags.getLsbD 7 = true → cs[10]? = some 0x53) ∧
    (rider = 1 → cs[10 + signal]? = some 0x52) ∧ (rider = 2 → cs[10 + signal]? = some 0x50) ∧
    (rider = 3 → cs[10 + signal]? = some 0x43)
  (∀ f : Frame,
    fits f.chars ∧
    (f.chars.getD 2 0).getLsbD 7 = f.signal.isSome ∧
    (f.chars.getD 2 0).toNat / 16 % 4 =
      (match f.rider with | .none => 0 | .roster _ => 1 | .profile _ _ => 2 | .clock _ _ => 3)) ∧
  ∀ cs : List Byte, readFrame cs ≠ none → fits cs

/-- A frame's characters, position by position: core, signal part, rider, and the CRC-16 of what lies between the opening
character and the trailer, high character first. The CRC starts at 0000h; each bit of a character, the most significant
first, shifts it once, with 1021h for the bits x^12, x^5 and 1. What is sent reads back: every frame whose fields lie in
their ranges, each field at each value. -/
def Obligations.FrameReadsBack : Prop :=
  (crc16 [] = 0 ∧
    ∀ (cs : List Byte) (c : Byte),
      crc16 (cs ++ [c]) =
        ([7, 6, 5, 4, 3, 2, 1, 0].map c.getLsbD).foldl
          (fun (crc : Word16) bit => if crc.msb = bit then crc <<< 1 else (crc <<< 1) ^^^ 0x1021#16) (crc16 cs)) ∧
  (∀ f : Frame,
    let flag (b : Bool) : Nat := if b then 1 else 0
    let causes := f.core.causes
    let signal : List Nat :=
      match f.signal with
      | none => []
      | some p =>
        [0x53, (match p.state with | .closed => 0 | .opened => 1 | .winding => 2), p.sequence, p.budget / 256,
          p.budget]
    let rider : List Nat :=
      match f.rider with
      | .none => []
      | .roster heard =>
        [0x52, heard.toNat / 16777216, heard.toNat / 65536, heard.toNat / 256, heard.toNat]
      | .profile departure floor => [0x50, departure / 256, departure, floor / 256, floor]
      | .clock minute second => [0x43, minute / 256, minute, second]
    let covered : List Byte :=
      ([f.station,
        128 * flag f.signal.isSome + (match f.core.state with | .member => 0 | .holding => 4 | .leaving => 64 + 8) +
          (match f.rider with | .none => 0 | .roster _ => 16 | .profile _ _ => 32 | .clock _ _ => 48) +
          2 * flag f.core.digestCurrent,
        flag causes.noBus + 2 * flag causes.noProfile + 4 * flag causes.noReading + 8 * flag causes.lapse +
          16 * flag causes.stop + 32 * flag causes.withdrawn,
        f.core.offerPower, f.core.offerEnergy / 256, f.core.offerEnergy, f.core.announced,
        f.core.digest.toNat / 256, f.core.digest.toNat] ++ signal ++ rider).map (BitVec.ofNat 8)
    let crc := (crc16 covered).toNat
    f.chars = 0x96 :: (covered ++ [crc / 256, crc].map (BitVec.ofNat 8))) ∧
  (∀ f : Frame,
    f.valid = true ↔
      f.station ≤ 31 ∧ f.core.offerPower ≤ 150 ∧ f.core.offerEnergy ≤ 400 ∧ f.core.announced ≤ 255 ∧
      (∀ p, f.signal = some p → p.sequence ≤ 15 ∧ p.budget ≤ 2000) ∧
      (∀ d fl, f.rider = .profile d fl → d ≤ 1439 ∧ fl ≤ 400) ∧
      ∀ m sec, f.rider = .clock m sec → m ≤ 1439 ∧ sec ≤ 59) ∧
  ∀ f : Frame, f.valid = true → readFrame f.chars = some f

/-- What reads as a good frame is exactly what that frame would be sent as, and every field lies in its range:
a candidate with any other CRC, length, tag, flag or field is corrupt. -/
def Obligations.GoodFramesAreTheSentOnes : Prop :=
  ∀ (cs : List Byte) (f : Frame), readFrame cs = some f → f.valid = true ∧ f.chars = cs

/-- A good peer frame in its entry: without LEAVE the core, rider and signal part, the round count and the flag,
an ABSENT entry FRESH with PEER_CHANGED; with LEAVE the entry ABSENT, LEFT, with live count and census lowered, once
between two ageings, as the entry stood after the latest ageing, which the entry keeps. Nothing but that entry, the two counts and the queue changes. -/
def Obligations.FramesAreStored : Prop :=
  ∀ (f : Frame) (s : State), f.station < s.peers.entries.length →
    let e := s.peers.entry f.station
    let t := s.storeFrame f
    let e' := t.peers.entry f.station
    e = s.peers.entries.getD f.station PeerEntry.reset ∧
    e'.core = some f.core ∧
    e'.riderKind =
      (match f.rider with | .none => .none | .roster _ => .roster | .profile _ _ => .profile | .clock _ _ => .clock) ∧ e'.lastHeard = some s.timer.roundCount ∧
    e'.standing = e.standing ∧ e'.leftSince = (e.leftSince || decide (f.core.state = .leaving)) ∧
    (∀ k, k ≠ f.station → t.peers.entry k = s.peers.entry k) ∧
    t.peers.received = s.peers.received ∧ t.peers.heard = s.peers.heard ∧
    t.peers.authority = s.peers.authority ∧
    (f.core.state ≠ .leaving →
      e'.signal = f.signal ∧ e'.frameSince = true ∧
      (∀ heard, f.rider = .roster heard → e'.roster = some ⟨heard, 0⟩) ∧
      ((∀ heard, f.rider ≠ .roster heard) → e'.roster = e.roster) ∧
      (∀ d fl, f.rider = .profile d fl → e'.profile = some ⟨d, fl, 0⟩) ∧
      ((∀ d fl, f.rider ≠ .profile d fl) → e'.profile = e.profile) ∧
      t.peers.liveCount = s.peers.liveCount ∧ t.peers.census = s.peers.census ∧
      (e.presence.isPresent = true →
        e'.presence = e.presence ∧ e'.missCount = e.missCount ∧ t.notices = s.notices) ∧
      (e.presence.isPresent = false →
        e'.presence = .fresh ∧ e'.missCount = 0 ∧
        t.notices = folded s.enabled s.timer.roundCount [peerNotice f.station .fresh] s.notices)) ∧
    (f.core.state = .leaving →
      e'.presence = .absent .left ∧ e'.missCount = e.missCount ∧ e'.signal = none ∧ e'.roster = none ∧
      e'.profile = none ∧ e'.frameSince = false ∧
      t.peers.liveCount =
        (if e.standing.isPresent = true ∧ e.leftSince = false then s.peers.liveCount - 1
         else s.peers.liveCount) ∧
      t.peers.census =
        (if s.window.adopted.state ≠ .closed ∧ e.leftSince = false ∧
            (e.standing.isPresent = true ∨ e.standing = .absent .silent) then
          max (s.peers.census - 1) t.peers.liveCount
         else s.peers.census) ∧
      t.notices =
        (if e.presence.isPresent then
          folded s.enabled s.timer.roundCount [peerNotice f.station (.absent .left)] s.notices
         else s.notices)) ∧
    t = { s with peers := t.peers, notices := t.notices }

/-- A good peer frame received: in step it is stored and its CLOCK rider judged; out of its place by more than
8 ms, and by less than 200 ms or at an unfixed station, the anchor moves first, a run in flight is aborted, and
an own slot opening not yet raised and already past is dropped; else it is counted and stored. That an own slot opening
whose new time is the very instant of the re-anchor stays to be raised is DEDUCED (log entry 12): R18 leaves it open. -/
def Obligations.PeerFramesMoveTheAnchor : Prop :=
  ∀ (dt : Nat) (r : Reception) (gf : Bool) (s : State) (a : Instant) (f : Frame), s.running = true →
    s.timer.anchor = some a →
    let m := s.advance dt
    let start := m.now - (r.lasted : Int)
    let implied := start - 1000 * (40 + 50 * (f.station : Int))
    s.line.receives start m.now = true → classify r = .candidate r.chars → readFrame r.chars = some f →
    s.control.number ≠ some f.station →
    ((implied - a).natAbs ≤ 8000 →
      exec (.transmissionEnd dt r gf) s = .next ((m.storeFrame f).judgeClock f).settle) ∧
    (8000 < (implied - a).natAbs → (s.timer.fixed = false ∨ (implied - a).natAbs < 200000) →
      let moved := m.reanchor implied
      exec (.transmissionEnd dt r gf) s = .next ((moved.storeFrame f).judgeClock f).settle ∧
      moved.timer =
        { m.abortRun.timer with
          anchor := some implied
          fixed := true
          slotPending :=
            s.timer.slotPending &&
              decide (m.now ≤ implied + 1000 * (40 + 50 * ((s.control.number.getD 0 : Nat) : Int))) } ∧
      moved = { m.abortRun with timer := moved.timer }) ∧
    (200000 ≤ (implied - a).natAbs → s.timer.fixed = true →
      exec (.transmissionEnd dt r gf) s =
        .next (State.settle
          (State.storeFrame f { m with line := { s.line with corrupt := min 255 (s.line.corrupt + 1) } })))

/-- A CLOCK rider is judged when its sender is the authority: against the own clock at the own anchor, the short
way round the day, less than 1 s leaves the clock, 1 s or more sets it to the carried time plus the time since
the anchor, and more than 60 s is noticed in whole seconds. A frame with any other rider, or none, moves nothing. -/
def Obligations.ClockRidersOfTheAuthorityAreJudged : Prop :=
  (∀ (f : Frame) (s : State), (∀ minute second, f.rider ≠ .clock minute second) → s.judgeClock f = s) ∧
  ∀ (f : Frame) (s : State) (a : Instant) (minute second : Nat), s.timer.anchor = some a →
    f.rider = .clock minute second →
    let day : Int := 86400000000
    let carried : Int := 1000000 * (60 * (minute : Int) + second)
    let own : Int := ((s.window.clock : Int) - (s.now - a)) % day
    let ahead := (carried - own) % day
    let size := min ahead (day - ahead)
    minute ≤ 1439 → second ≤ 59 →
    (s.peers.authority ≠ some f.station → s.judgeClock f = s) ∧
    (s.peers.authority = some f.station →
      (size < 1000000 → s.judgeClock f = s) ∧
      (1000000 ≤ size →
        ((s.judgeClock f).window.clock : Int) = (carried + (s.now - a)) % day ∧
        (s.judgeClock f).notices =
          (if 60000000 < size then
            folded s.enabled s.timer.roundCount [numbered .clockStepped (size / 1000000).toNat] s.notices
           else s.notices) ∧
        s.judgeClock f =
          { s with
            window := { s.window with clock := (s.judgeClock f).window.clock }
            notices := (s.judgeClock f).notices }))

/-- A transmission is received when the receiver was on by its start (it is off in OFFLINE, and after START waits for the
line to be idle), it does not overlap an own frame or mark, and it started after the end of the last own line activity.
One that ended at the very instant at which the own sending starts does not overlap it (DEDUCED, log entry 22). One that was
not received has no effect; a fragment is not counted; a corrupt transmission, a corrupt frame and a stray mark are
counted, up to 255, and do nothing else. -/
def Obligations.UnusableTransmissionsAreCounted : Prop :=
  ∀ (dt : Nat) (r : Reception) (gf : Bool) (s : State), s.running = true →
    let m := s.advance dt
    let start := m.now - (r.lasted : Int)
    let counted : State := { m with line := { s.line with corrupt := min 255 (s.line.corrupt + 1) } }
    (s.line.receives start m.now = true ↔
      (∃ since, s.line.receiver = .on since ∧ since ≤ start) ∧
      (∀ own f, s.line.transmitter = .sending own f →
        m.now ≤ own ∨ own + (((6250 * f.chars.length + 6) / 12 : Nat) : Int) < start) ∧
      (∀ own, s.line.transmitter = .mark own → m.now ≤ own ∨ own + 1563 < start) ∧
      ∀ ended, s.line.ownUntil = some ended → ended < start) ∧
    (s.line.receives start m.now = false → exec (.transmissionEnd dt r gf) s = .next m.settle) ∧
    (s.line.receives start m.now = true →
      (classify r = .fragment → exec (.transmissionEnd dt r gf) s = .next m.settle) ∧
      (classify r = .corrupt → exec (.transmissionEnd dt r gf) s = .next counted.settle) ∧
      (classify r = .candidate r.chars → readFrame r.chars = none →
        exec (.transmissionEnd dt r gf) s = .next counted.settle) ∧
      (∀ a, classify r = .mark → s.timer.anchor = some a → s.timer.fixed = true → start < a + 1900000 →
        exec (.transmissionEnd dt r gf) s = .next counted.settle))

/-- A heard mark is honoured 1,900 ms or more after the anchor, and at an unfixed station whatever its instant:
it opens a round at its instant; at an unfixed station it is the first fix and aborts a run in flight. That the abort
comes before the round opens, so that RUN_ABORTED carries the ending round's count, is the model's choice (log entry
13). -/
def Obligations.HonouredMarksOpenARound : Prop :=
  ∀ (dt : Nat) (r : Reception) (gf : Bool) (s : State) (a : Instant), s.running = true →
    s.timer.anchor = some a →
    let m := s.advance dt
    let start := m.now - (r.lasted : Int)
    s.line.receives start m.now = true → classify r = .mark →
    (s.timer.fixed = true → a + 1900000 ≤ start →
      exec (.transmissionEnd dt r gf) s = .next (m.openRound start).settle) ∧
    (s.timer.fixed = false →
      exec (.transmissionEnd dt r gf) s =
        .next (State.settle
          (State.openRound start { m.abortRun with timer := { m.abortRun.timer with fixed := true } })))

/-- An abort: the run in flight is ABORTED with its notice, and grant, digest, export, floor hold and the
split-seen flag stay; with no run in flight nothing happens. -/
def Obligations.AbortKeepsTheLastCompletedRun : Prop :=
  ∀ (s : State),
    (∀ v, s.grant.runStatus = .inFlight → s.grant.view = some v →
      s.abortRun =
        { s with
          grant := { s.grant with runStatus := .aborted }
          timer := { s.timer with outcome := .aborted }
          notices :=
            folded s.enabled s.timer.roundCount [numbered .runAborted v.round] s.notices }) ∧
    (s.grant.runStatus ≠ .inFlight → s.abortRun = s)

/-- A round opening: the anchor, the round count one up modulo 65536, the round's events to be raised, the
run-miss count moved by the ending round's report, grant and export zeroed when it reaches 2, and the window sample of
the new round: at a station with the strap the levels and their pattern match are taken in JOINING, MEMBER and HOLDING,
the former current sample becomes the previous, and in MEMBER and HOLDING the own window steps at the minute of the
anchor; nowhere else anything. That the zeroing's notice carries the new round's count is the model's choice (log entry
13); that a run still in flight counts as a miss is DEDUCED (log entry 15). -/
def Obligations.RoundOpeningsCountMisses : Prop :=
  ∀ (anchor : Instant) (s : State),
    let t := s.openRound anchor
    let missed : Prop :=
      (s.control.state = .joining ∨ s.control.state = .member ∨ s.control.state = .holding) ∧
      (s.timer.outcome = .noAllocation ∨ s.timer.outcome = .running ∨ s.timer.outcome = .aborted)
    t.timer.anchor = some anchor ∧ t.timer.roundCount = (s.timer.roundCount + 1) % 65536 ∧
    t.timer.slotPending = true ∧ t.timer.allocationPending = true ∧ t.timer.outcome = .noAllocation ∧
    t.timer.fixed = s.timer.fixed ∧ t.timer.allocations = s.timer.allocations ∧
    (¬missed → t.timer.runMisses = s.timer.runMisses) ∧
    (missed → t.timer.runMisses = min 2 (s.timer.runMisses + 1)) ∧
    ((missed ∧ s.timer.runMisses = 1) →
      t.grant = { s.grant with ownGrant := 0 } ∧
      t.setpoint = s.setpoint.at_ 0 s.control.configuration s.readiness ∧
      t.notices =
        folded s.enabled t.timer.roundCount (if 0 < s.grant.ownGrant then [grantNotice 0] else [])
          s.notices) ∧
    (¬(missed ∧ s.timer.runMisses = 1) →
      t.grant = s.grant ∧ t.setpoint = s.setpoint ∧ t.notices = s.notices) ∧
    (∀ c, s.control.configuration = some c → s.control.signalStrap = some true →
      (s.control.state = .joining ∨ s.control.state = .member ∨ s.control.state = .holding) →
      let matched := patternMatch c s.window.current s.inputs.grid
      let clock : Int := ((s.window.clock : Int) - (s.now - anchor)) % 86400000000
      t.window =
        { s.window with
          previous := s.window.current
          current := some ⟨s.inputs.grid, matched⟩
          own :=
            if s.control.state = .joining then s.window.own
            else
              stepWindow c
                { matched := matched, previous := s.window.current, levels := s.inputs.grid
                  minute := (clock / 60000000).toNat }
                s.window.own }) ∧
    ((s.control.configuration = none ∨ s.control.signalStrap ≠ some true ∨ s.control.state = .offline ∨
        s.control.state = .leaving ∨ s.control.state = .faulted) →
      t.window = s.window) ∧
    t =
      { s with
        timer := t.timer, grant := t.grant, setpoint := t.setpoint, notices := t.notices
        window := t.window }

/-- The round timer expires 2,000 + n ms after the anchor: the expiry instant opens a round, and in JOINING,
MEMBER, HOLDING and LEAVING a mark goes out from that instant when the line is idle (s.line.stopped, spelled in
OwnNumberHeardIsADuplicate, ends what a mark before it left). A
command before that instant, or with no anchor, changes nothing, and a later one opens the round at that instant (log
entry 3, DEDUCED). That no mark starts where an own frame waits or is being sent, whatever the operand says, is the
model's choice (log entry 10). -/
def Obligations.RoundTimerOpensARound : Prop :=
  (∀ (dt : Nat) (idle : Bool) (s : State), s.running = true →
    (s.timer.anchor = none ∨
      ∃ a, s.timer.anchor = some a ∧
        (s.advance dt).now < a + ((1000 * (2000 + s.control.number.getD 0) : Nat) : Int)) →
    exec (.roundTimerExpiry dt idle) s = .next (s.advance dt).settle) ∧
  ∀ (dt : Nat) (idle : Bool) (s : State) (a : Instant), s.running = true → s.timer.anchor = some a →
    let m := s.advance dt
    let e : Instant := a + ((1000 * (2000 + s.control.number.getD 0) : Nat) : Int)
    e ≤ m.now →
    let marks : Prop :=
      idle = true ∧
      (s.control.state = .joining ∨ s.control.state = .member ∨ s.control.state = .holding ∨
        s.control.state = .leaving) ∧
      (s.line.transmitter = .silent ∨ ∃ i, s.line.transmitter = .mark i)
    (marks →
      exec (.roundTimerExpiry dt idle) s =
        .next (State.settle
          { m.openRound e with line := { s.line.stopped e with transmitter := .mark e } })) ∧
    (¬marks → exec (.roundTimerExpiry dt idle) s = .next (m.openRound e).settle)

/-- A good frame bearing the own number brings the station into FAULTED from JOINING, MEMBER, HOLDING and
LEAVING, with evidence HEARD; in FAULTED it has no effect. The order of the two notices comes with the command (log
entry 9). What stops with it: a frame being sent stops at once, and what is left of it on the line stays the station's
own; that a frame still waiting for the line is dropped and that an own mark runs out is DEDUCED (log entry 18).
LineInterface.stopped is what ends any own transmission, at that instant or at its own end where that came first. -/
def Obligations.OwnNumberHeardIsADuplicate : Prop :=
  (∀ (l : LineInterface) (now : Instant),
    let ended (e : Instant) : LineInterface := { l with transmitter := .silent, ownUntil := some (min now e) }
    (l.transmitter = .silent → l.stopped now = l ∧ l.frameStopped now = l) ∧
    (∀ opening f, l.transmitter = .waiting opening f →
      l.stopped now = { l with transmitter := .silent } ∧ l.frameStopped now = l.stopped now) ∧
    (∀ start f, l.transmitter = .sending start f →
      l.stopped now = ended (start + (((6250 * f.chars.length + 6) / 12 : Nat) : Int)) ∧
      l.frameStopped now = l.stopped now) ∧
    ∀ start, l.transmitter = .mark start → l.stopped now = ended (start + 1563) ∧ l.frameStopped now = l) ∧
  ∀ (dt : Nat) (r : Reception) (gf : Bool) (s : State) (f : Frame), s.running = true →
    let m := s.advance dt
    s.line.receives (m.now - (r.lasted : Int)) m.now = true → classify r = .candidate r.chars →
    readFrame r.chars = some f → s.control.number = some f.station →
    ((s.control.state = .joining ∨ s.control.state = .member ∨ s.control.state = .holding ∨
        s.control.state = .leaving) →
      ∃ t, exec (.transmissionEnd dt r gf) s = .next t ∧
        EntersFaulted m t .heard gf (s.line.frameStopped m.now)) ∧
    (s.control.state = .faulted → exec (.transmissionEnd dt r gf) s = .next m.settle)

/-- READBACK_MISMATCH: a frame with bits still to go is CUT and the failure count goes up; at 3 the station enters FAULTED with
evidence READBACK; otherwise the third attempt of a LEAVE ends it with its field 0, and any other CUT frame
changes the line alone; a mark just stops, within its 1,562.5 µs (to the nearest microsecond: log entry 2), and later it
has run out. After a frame's last bit, and with nothing being sent, nothing happens (log entry 3, DEDUCED). The order of the two notices of an entry into FAULTED comes with the
command (log entry 9). -/
def Obligations.CutFramesCountToADuplicate : Prop :=
  ∀ (dt : Nat) (gf : Bool) (s : State), s.running = true →
    let m := s.advance dt
    let line (n : Nat) : LineInterface :=
      { s.line with transmitter := .silent, ownUntil := some m.now, readbackFailures := n }
    (∀ start f, s.line.transmitter = .sending start f →
      start + (((6250 * f.chars.length + 6) / 12 : Nat) : Int) ≤ m.now →
      exec (.readbackMismatch dt gf) s = .next m.settle) ∧
    (∀ start f, s.line.transmitter = .sending start f →
      m.now < start + (((6250 * f.chars.length + 6) / 12 : Nat) : Int) →
      (s.line.readbackFailures = 2 → s.control.state.watches = true →
        ∃ t, exec (.readbackMismatch dt gf) s = .next t ∧ EntersFaulted m t .readback gf (line 3)) ∧
      (s.line.readbackFailures < 2 →
        ((f.core.state = .leaving ∧ s.control.state = .leaving ∧ 3 ≤ s.control.leaveAttempts) →
          exec (.readbackMismatch dt gf) s = .next (LeftTheLine m false)) ∧
        (¬(f.core.state = .leaving ∧ s.control.state = .leaving ∧ 3 ≤ s.control.leaveAttempts) →
          exec (.readbackMismatch dt gf) s =
            .next (State.settle { m with line := line (s.line.readbackFailures + 1) })))) ∧
    (∀ i, s.line.transmitter = .mark i → m.now < i + 1563 →
      exec (.readbackMismatch dt gf) s =
        .next (State.settle { m with line := line s.line.readbackFailures })) ∧
    (∀ i, s.line.transmitter = .mark i → i + 1563 ≤ m.now →
      exec (.readbackMismatch dt gf) s =
        .next (State.settle { m with line := { s.line with transmitter := .silent, ownUntil := some (i + 1563) } })) ∧
    ((s.line.transmitter = .silent ∨ ∃ opening f, s.line.transmitter = .waiting opening f) →
      exec (.readbackMismatch dt gf) s = .next m.settle)

/-- FRAME_SENT, with every state in which it can come: a frame lasts its characters' ten bit times each at 19,200 bit/s (12
characters 6.25 ms, 22 characters 11.46 ms; to the nearest microsecond, log entry 2), and before that the command has no
effect (DEDUCED, log entry 3). From then on the failure count is 0 and the run's record holds the offer sent; a
LEAVE frame takes the station to OFFLINE; a frame that carries WITHDRAWN and was built after the AVAIL(withdrawn) in
flight was taken completes it, and any other leaves it in flight. With no own frame being sent nothing happens (log
entry 3). -/
def Obligations.SentFramesComplete : Prop :=
  ∀ (dt : Nat) (s : State), s.running = true →
    let m := s.advance dt
    (∀ start f, s.line.transmitter = .sending start f →
      m.now < start + (((6250 * f.chars.length + 6) / 12 : Nat) : Int) → exec (.frameSent dt) s = .next m.settle) ∧
    (∀ start f, s.line.transmitter = .sending start f →
      let e : Instant := start + (((6250 * f.chars.length + 6) / 12 : Nat) : Int)
      e ≤ m.now →
      let sent : State :=
        { m with
          line := { s.line with transmitter := .silent, ownUntil := some e, readbackFailures := 0 }
          grant := { s.grant with sentOffer := some ⟨f.core.offerPower, f.core.offerEnergy⟩ } }
      let leaves : Prop := f.core.state = .leaving ∧ s.control.state = .leaving
      let announces : Prop :=
        s.control.withdrawalPending = true ∧ s.control.announcementBuilt = true ∧
        f.core.causes.withdrawn = true
      (leaves → exec (.frameSent dt) s = .next (LeftTheLine m true)) ∧
      (¬leaves → announces →
        exec (.frameSent dt) s =
          .next (State.settle
            { sent with
              control := { s.control with withdrawalPending := false }
              link :=
                match s.link.request with
                | some r => s.link.answered r.kind .ok []
                | none => s.link })) ∧
      (¬leaves → ¬announces → exec (.frameSent dt) s = .next sent.settle)) ∧
    ((∀ start f, s.line.transmitter ≠ .sending start f) → exec (.frameSent dt) s = .next m.settle)

/-- A frame that found the line busy starts when the line falls idle within 5 ms of the slot's opening, and not later;
after 5 ms, and not before, it is BLOCKED, which at the third attempt of a LEAVE ends it with its field 0. With no frame
waiting neither command has an effect (log entry 3). The opening is the one that was raised, whatever re-anchor or round
opening came after it (the model's choice, log entry 21). The receiver begins to receive once the line has been idle after START. -/
def Obligations.WaitingFramesStartOrAreBlocked : Prop :=
  ∀ (dt : Nat) (s : State), s.running = true →
    let m := s.advance dt
    (∀ opening f, s.line.transmitter = .waiting opening f →
      (m.now ≤ opening + 5000 →
        exec (.frameStartDeferred dt) s =
          .next (State.settle { m with line := { s.line with transmitter := .sending m.now f } })) ∧
      (opening + 5000 < m.now → exec (.frameStartDeferred dt) s = .next m.settle) ∧
      (m.now < opening + 5000 → exec (.slotStartDeadline dt) s = .next m.settle) ∧
      (opening + 5000 ≤ m.now →
        ((f.core.state = .leaving ∧ s.control.state = .leaving ∧ 3 ≤ s.control.leaveAttempts) →
          exec (.slotStartDeadline dt) s = .next (LeftTheLine m false)) ∧
        (¬(f.core.state = .leaving ∧ s.control.state = .leaving ∧ 3 ≤ s.control.leaveAttempts) →
          exec (.slotStartDeadline dt) s =
            .next (State.settle { m with line := { s.line with transmitter := .silent } })))) ∧
    ((∀ opening f, s.line.transmitter ≠ .waiting opening f) →
      exec (.frameStartDeferred dt) s = .next m.settle ∧ exec (.slotStartDeadline dt) s = .next m.settle) ∧
    (s.line.receiver = .awaitingIdle →
      exec (.lineIdleAfterStart dt) s =
        .next (State.settle { m with line := { s.line with receiver := .on m.now } })) ∧
    (s.line.receiver ≠ .awaitingIdle → exec (.lineIdleAfterStart dt) s = .next m.settle)

/-! ### The own frame -/

/-- Which rider goes out: the first owed entry that may be sent, else the first due one; every other due entry
becomes owed, the chosen one's mark is cleared, and a PROFILE entry owes nothing while no profile is held. -/
def Obligations.RiderSelection : Prop :=
  ∀ (x : PlanContext) (plan : List RiderEntry),
    let due (e : RiderEntry) : Prop :=
      x.round % e.entry.period = e.entry.offset ∧ (e.entry.kind = .clock → x.strap = true) ∧
      (e.entry.kind = .profile → x.profileHeld = true)
    let sendable (e : RiderEntry) : Prop :=
      e.owed = true ∧ (e.entry.kind = .profile → x.profileHeld = true)
    let chosen := chosenIndex x plan
    (∀ i, chosen = some i →
      ∃ e, plan[i]? = some e ∧
        ((sendable e ∧ ∀ j < i, ∀ e', plan[j]? = some e' → ¬sendable e') ∨
          (due e ∧ (∀ j < i, ∀ e', plan[j]? = some e' → ¬due e') ∧ ∀ e' ∈ plan, ¬sendable e'))) ∧
    (chosen = none → ∀ e ∈ plan, ¬sendable e ∧ ¬due e) ∧
    (remark x chosen plan).length = plan.length ∧
    ∀ i e, plan[i]? = some e →
      ∃ e', (remark x chosen plan)[i]? = some e' ∧ e'.entry = e.entry ∧
        (e'.owed = true ↔
          chosen ≠ some i ∧ (e.owed = true ∨ due e) ∧ (e.entry.kind = .profile → x.profileHeld = true))

/-- The own slot opening, raised once a round: in MEMBER, HOLDING and LEAVING the frame built from what each
block holds goes out from that instant on, or waits for a busy line; in the other states nothing is built. A command before its instant, with
no anchor, or a second time in the round changes nothing (log entry 3). -/
def Obligations.OwnSlotOpeningBuildsTheFrame : Prop :=
  (∀ (dt : Nat) (idle : Bool) (s : State), s.running = true →
    (s.timer.anchor = none ∨ s.timer.slotPending = false ∨
      ∃ a, s.timer.anchor = some a ∧
        (s.advance dt).now < a + ((1000 * (40 + 50 * s.control.number.getD 0) : Nat) : Int)) →
    exec (.ownSlotOpening dt idle) s = .next (s.advance dt).settle) ∧
  ∀ (dt : Nat) (idle : Bool) (s : State) (a : Instant), s.running = true → s.timer.anchor = some a →
    s.timer.slotPending = true →
    let m := s.advance dt
    let n := s.control.number.getD 0
    let opening : Instant := a + ((1000 * (40 + 50 * n) : Nat) : Int)
    opening ≤ m.now →
    let leaving : Prop := s.control.state = .leaving
    let plan := s.plan.getD []
    let x : PlanContext :=
      { round := s.timer.roundCount, strap := s.control.signalStrap.getD false
        profileHeld := s.readiness.profile.isSome }
    let kind : Option PlanKind := (chosenIndex x plan).bind fun i => (plan[i]?).map fun e => e.entry.kind
    let clock : Int := ((m.window.clock : Int) - (m.now - a)) % 86400000000
    ((s.control.state = .offline ∨ s.control.state = .joining ∨ s.control.state = .faulted) →
      exec (.ownSlotOpening dt idle) s =
        .next (State.settle { m with timer := { s.timer with slotPending := false } })) ∧
    ((s.control.state = .member ∨ s.control.state = .holding ∨ leaving) →
      ∃ f : Frame,
        f.station = n ∧
        (f.core.state = .member ↔ s.control.state = .member) ∧
        (f.core.state = .holding ↔ s.control.state = .holding) ∧ (f.core.state = .leaving ↔ leaving) ∧
        f.core.causes = s.control.causes ∧
        (leaving → f.core.offerPower = 0 ∧ f.core.announced = 0) ∧
        (¬leaving →
          f.core.offerPower = s.readiness.offerPower ∧
          f.core.announced = announcedFor m.readiness s.setpoint.applied) ∧
        f.core.offerEnergy = s.readiness.offerEnergy ∧ f.core.digest = s.grant.digest ∧
        (f.core.digestCurrent = true ↔
          ∃ r, s.grant.digestRound = some r ∧ (r + 1) % 65536 = s.timer.roundCount) ∧
        (s.control.signalStrap = some true →
          f.signal = some ⟨s.window.own.state, s.window.own.sequence, s.window.own.budget⟩) ∧
        (s.control.signalStrap ≠ some true → f.signal = none) ∧
        (kind = none → f.rider = .none) ∧
        (kind = some .roster → f.rider = .roster s.peers.heard) ∧
        (∀ p, kind = some .profile → s.readiness.profile = some p →
          f.rider = .profile p.departure (s.readiness.floor.getD 0)) ∧
        (kind = some .clock →
          f.rider = .clock (clock / 60000000).toNat (clock / 1000000 % 60).toNat) ∧
        exec (.ownSlotOpening dt idle) s =
          .next (State.settle
            { m with
              timer := { s.timer with slotPending := false }
              plan := s.plan.map (remark x (chosenIndex x plan))
              control :=
                { s.control with
                  leaveAttempts :=
                    if s.control.state = .leaving then min 3 (s.control.leaveAttempts + 1)
                    else s.control.leaveAttempts
                  announcementBuilt := true }
              line :=
                { s.line.stopped opening with
                  transmitter := if idle then .sending opening f else .waiting opening f } }))

/-! ### The allocation point -/

/-- An allocation point copies the corrupt count, ages every peer entry, captures the received set, and fixes
heard set, live count, authority, adopted window and census, from the state it finds. It is raised at most once a round:
a command before its instant, with no anchor, or a second time in the round changes nothing (log entry 3), so this holds
of AllocationPointJudgesAndJoins and AllocationPointFreezesTheView too. -/
def Obligations.AllocationPointAgesAndAdopts : Prop :=
  (∀ (dt : Nat) (order : Arrival) (s : State), s.running = true →
    (s.timer.anchor = none ∨ s.timer.allocationPending = false ∨
      ∃ a, s.timer.anchor = some a ∧ (s.advance dt).now < a + 1660000) →
    exec (.allocationPoint dt order) s = .next (s.advance dt).settle) ∧
  ∀ (dt : Nat) (order : Arrival) (c : Configuration) (s : State), s.atAllocation dt c →
    s.peers.entries.length = 32 →
    ∃ t, exec (.allocationPoint dt order) s = .next t ∧
      t.line = { s.line with lastCorrupt := s.line.corrupt, corrupt := 0 } ∧
      t.timer =
        { s.timer with
          allocationPending := false
          allocations := min 2 (s.timer.allocations + 1)
          outcome := if s.control.state.runs then .running else .noRun } ∧
      t.peers.entries.length = 32 ∧
      (∀ k < 32,
        let e := s.peers.entry k
        let e' := t.peers.entry k
        let misses := if e.frameSince then 0 else min 8 (e.missCount + 1)
        let older (age : Nat) : Option Nat := if 16 ≤ age + 1 then none else some (age + 1)
        (s.control.number = some k → e' = { e with frameSince := false }) ∧
        (s.control.number ≠ some k → e.presence.isPresent = false →
          e' = { e with frameSince := false, standing := e.presence, leftSince := false }) ∧
        (s.control.number ≠ some k → e.presence.isPresent = true →
          e'.missCount = misses ∧
          e'.presence =
            (if misses ≤ 1 then .fresh else if misses ≤ 7 then .stale else .absent .silent) ∧
          e'.standing = e'.presence ∧ e'.leftSince = false ∧ e'.frameSince = false ∧ e'.core = e.core ∧
          e'.riderKind = e.riderKind ∧ e'.lastHeard = e.lastHeard ∧
          (misses = 8 → e'.signal = none ∧ e'.roster = none ∧ e'.profile = none) ∧
          (misses ≠ 8 →
            e'.signal = e.signal ∧
            e'.roster = e.roster.bind (fun r => (older r.age).map fun g => { r with age := g }) ∧
            e'.profile = e.profile.bind (fun p => (older p.age).map fun g => { p with age := g })))) ∧
      (∀ k < 32,
        (t.peers.received.getLsbD k = true ↔
          s.control.number ≠ some k ∧ (s.peers.entry k).frameSince = true) ∧
        (t.peers.heard.getLsbD k = true ↔
          s.control.number = some k ∨ t.peers.received.getLsbD k = true)) ∧
      t.peers.liveCount =
        (if s.control.state.joined then 1 else 0) +
          ((List.range 32).filter fun k =>
            decide (s.control.number ≠ some k) && (t.peers.entry k).presence.isPresent).length ∧
      (let candidate (k : Nat) : Prop :=
        k < 32 ∧
        ((s.control.number = some k ∧ s.control.signalStrap = some true ∧ s.control.state.joined = true) ∨
          (s.control.number ≠ some k ∧ (t.peers.entry k).presence = .fresh ∧
            (t.peers.entry k).signal ≠ none))
       (∀ k, t.peers.authority = some k → candidate k ∧ ∀ j < k, ¬candidate j) ∧
       (t.peers.authority = none → ∀ k, ¬candidate k)) ∧
      t.window = { (s.advance dt).window with adopted := t.window.adopted } ∧
      (t.peers.authority = none → t.window.adopted = ⟨.closed, s.window.adopted.sequence, 0⟩) ∧
      (∀ k, t.peers.authority = some k →
        (s.control.number = some k →
          t.window.adopted = ⟨s.window.own.state, s.window.own.sequence, s.window.own.budget⟩) ∧
        (∀ p, s.control.number ≠ some k → (t.peers.entry k).signal = some p →
          t.window.adopted = ⟨p.state, p.sequence, if p.state = .closed then 0 else p.budget⟩)) ∧
      t.peers.census =
        (if t.window.adopted.state = .closed then 0
         else if s.window.adopted.state = .closed ∨
             s.window.adopted.sequence ≠ t.window.adopted.sequence then t.peers.liveCount
         else max s.peers.census t.peers.liveCount)

/-- An allocation point judges isolation, computes the offer and makes the floor test; the second one after
START joins, with START's OK; everything it does not name keeps its value. -/
def Obligations.AllocationPointJudgesAndJoins : Prop :=
  ∀ (dt : Nat) (order : Arrival) (c : Configuration) (s : State), s.atAllocation dt c →
    s.peers.entries.length = 32 →
    let m := s.advance dt
    ∃ t, exec (.allocationPoint dt order) s = .next t ∧
      (let fresh : Prop := ∃ k < 32, s.control.number ≠ some k ∧ (t.peers.entry k).presence = .fresh
       let present : Prop :=
         ∃ k < 32, s.control.number ≠ some k ∧ (t.peers.entry k).presence.isPresent = true
       let heard : Prop := s.control.peerHeard = true ∨ fresh
       let joins : Prop := s.control.state = .joining ∧ 1 ≤ s.timer.allocations
       let R := ReadinessUnit.computed m.readiness s.control.causes s.control.configuration
       let reached : Prop := R.offerEnergy = 0 ∧ 0 < s.setpoint.applied
       (t.control.peerHeard = true ↔ heard) ∧
       (s.control.state.joined = true →
         (t.control.isolated = true ↔
           (s.control.isolated = true ∧ ¬fresh) ∨ (s.control.isolated = false ∧ heard ∧ ¬present))) ∧
       (s.control.state.joined = false → t.control.isolated = s.control.isolated) ∧
       (joins →
         t.control.state = (if s.control.causes = .empty then .member else .holding) ∧
         ∀ r, s.link.request = some r →
           t.link =
             { s.link.answered r.kind .ok
                 [byte (s.control.number.getD 0), flagByte (s.control.signalStrap.getD false)] with
               irq := true }) ∧
       (¬joins →
         t.control.state = s.control.state ∧
         t.link = { s.link with irq := irqOf s.link.done t.notices }) ∧
       t.control =
         { s.control with
           state := t.control.state, peerHeard := t.control.peerHeard, isolated := t.control.isolated } ∧
       (reached →
         t.setpoint = m.setpoint.at_ 0 s.control.configuration m.readiness ∧
         t.readiness = { R with floorHold := true, holdAfterView := !s.control.state.runs }) ∧
       (¬reached →
         t.setpoint = s.setpoint ∧
         t.readiness =
           { R with
             holdAfterView := if s.control.state.runs then false else s.readiness.holdAfterView }) ∧
       t =
         { m with
           line := t.line, timer := t.timer, control := t.control, peers := t.peers, window := t.window
           readiness := t.readiness, grant := t.grant, setpoint := t.setpoint, link := t.link
           notices := t.notices })

/-- In JOINING, MEMBER and HOLDING an allocation point freezes a round view, makes the split test and starts a
run; in the other states it freezes none. Its notices reach the queue in the order the command gives for what the
spec leaves open (log entry 9): whatever that is, every notice is there once, those of the Peer Table, the Window
Controller and the Grant Engine keep that order, and each other block's keep theirs. An entry's presence has changed
where it was one of FRESH, STALE and ABSENT and is another. -/
def Obligations.AllocationPointFreezesTheView : Prop :=
  (∀ (o : Arrival) (ordered floor isolation lineErrors : List Notice),
    let all := arrivalOrder o ordered floor isolation lineErrors
    all.Perm (ordered ++ floor ++ isolation ++ lineErrors) ∧ ordered.Sublist all ∧ floor.Sublist all ∧
    isolation.Sublist all ∧ lineErrors.Sublist all) ∧
  (∀ p q : Presence,
    (p.isPresent = true ↔ p = .fresh ∨ p = .stale) ∧
    (p.sameKind q = true ↔
      (p = .fresh ∧ q = .fresh) ∨ (p = .stale ∧ q = .stale) ∨ ∃ a b, p = .absent a ∧ q = .absent b)) ∧
  ∀ (dt : Nat) (order : Arrival) (c : Configuration) (s : State), s.atAllocation dt c →
    s.peers.entries.length = 32 →
    let m := s.advance dt
    ∃ t, exec (.allocationPoint dt order) s = .next t ∧
      (let round := s.timer.roundCount
       let peers : List PeerRecord :=
         (List.range 32).filterMap fun k =>
           let e := t.peers.entry k
           if s.control.number ≠ some k ∧ e.presence.isPresent = true then
             e.core.map fun core =>
               { number := k, received := t.peers.received.getLsbD k, core := core
                 departure := e.profile.map fun p => p.departure }
           else none
       let differing : Nat :=
         if ∃ r, s.grant.digestRound = some r ∧ (r + 1) % 65536 = round then
           (peers.filter fun r =>
             r.received && r.core.digestCurrent && decide (r.core.digest ≠ s.grant.digest)).length
         else 0
       let R := ReadinessUnit.computed m.readiness s.control.causes s.control.configuration
       let reached : Prop := R.offerEnergy = 0 ∧ 0 < s.setpoint.applied
       (s.control.state.runs = true →
         ∃ v : RoundView,
           t.grant =
             { s.grant with
               view := some v, splitSeen := decide (0 < differing), runStatus := .inFlight
               sentOffer := none } ∧
           v.ownNumber = s.control.number.getD 0 ∧ v.ownState = s.control.state ∧
           v.ownOffer = ⟨R.offerPower, R.offerEnergy⟩ ∧
           v.ownDeparture = s.readiness.profile.map (fun p => p.departure) ∧
           v.sent = s.grant.sentOffer ∧ v.peers = peers ∧ v.received = t.peers.received ∧
           v.heard = t.peers.heard ∧
           v.rosters =
             (List.range 32).filterMap (fun k => (t.peers.entry k).roster.map fun r => r.heard) ∧
           v.liveCount = t.peers.liveCount ∧ v.census = t.peers.census ∧
           v.budget = min t.window.adopted.budget c.depotLimit ∧ v.round = round ∧ v.frozenAt = m.now) ∧
       (s.control.state.runs = false → t.grant = { s.grant with sentOffer := none }) ∧
       t.notices =
         folded s.enabled round
           (arrivalOrder order
             ((List.range 32).flatMap (fun k =>
                if (s.peers.entry k).presence.sameKind (t.peers.entry k).presence then []
                else [peerNotice k (t.peers.entry k).presence]) ++
              (if t.peers.authority = s.peers.authority then []
               else
                 [{ kind := .authorityChanged, subject := none
                    value := .authority t.peers.authority }]) ++
              windowNotices s.window.adopted t.window.adopted ++
              (if s.control.state.runs = true ∧ 0 < differing then [numbered .viewSplit differing]
               else []))
             (if reached then [numbered .floorReached (R.estimate.getD 0)] else [])
             (if t.control.isolated = s.control.isolated then []
              else if t.control.isolated then [numbered .isolated t.peers.census]
              else [numbered .lineRestored t.peers.liveCount])
             (if 4 ≤ s.line.corrupt then [numbered .lineErrors s.line.corrupt] else []))
           s.notices)

/-! ### Runs and grants -/

/-- A run completes: floor hold is settled, grant and digest are stored, the run-miss count is 0, and applied
export follows the grant in MEMBER with floor hold clear, up by no more than the ramp step; else it is 0. The own chain
grant is the grant of the own number among the view's, 0 where it is no chain member; the split guard's M counts the
stations of the heard set and of every roster. STAGE's duty at an applied export is its thousandths of the stage rating
latched, rounded down, and 0 while none is latched. A command more than 100 ms after the freeze, or with no run in flight,
changes nothing (log entry 3). -/
def Obligations.RunsComplete : Prop :=
  (∀ v : RoundView,
    ((∃ p ∈ v.grants, p.1.number = v.ownNumber ∧ v.ownChainGrant = p.2) ∨
      ((∀ p ∈ v.grants, p.1.number ≠ v.ownNumber) ∧ v.ownChainGrant = 0)) ∧
    v.known =
      ((List.range 32).filter fun k => v.heard.getLsbD k || v.rosters.any fun r => r.getLsbD k).length) ∧
  (∀ (c : Configuration) (applied : Nat),
    stageDuty (some c) applied = 1000 * applied / c.stageRating ∧ stageDuty none applied = 0) ∧
  (∀ (dt : Nat) (s : State), s.running = true →
    (s.grant.runStatus ≠ .inFlight ∨ s.grant.view = none ∨
      ∃ v, s.grant.view = some v ∧ v.frozenAt + 100000 < (s.advance dt).now) →
    exec (.runCompletion dt) s = .next (s.advance dt).settle) ∧
  ∀ (dt : Nat) (s : State) (v : RoundView) (c : Configuration), s.running = true →
    s.grant.runStatus = .inFlight → s.grant.view = some v → s.control.configuration = some c →
    let m := s.advance dt
    m.now ≤ v.frozenAt + 100000 →
    let g :=
      if v.ownState = .joining then 0
      else if s.grant.splitSeen then min v.ownChainGrant (v.available / v.known)
      else v.ownChainGrant
    let hold : Bool :=
      s.readiness.floorHold && (s.readiness.holdAfterView || decide (v.ownOffer.power = 0))
    let target :=
      if s.control.state = .member ∧ hold = false then
        (if g ≤ s.setpoint.applied then g else min g (s.setpoint.applied + c.rampStep))
      else 0
    exec (.runCompletion dt) s =
      .next (State.settle
        { m with
          grant :=
            { s.grant with
              ownGrant := g, digest := v.grantDigest, digestRound := some v.round
              runStatus := .completed }
          timer := { s.timer with runMisses := 0, outcome := .completed }
          readiness := { m.readiness with floorHold := hold }
          setpoint := m.setpoint.at_ target s.control.configuration m.readiness
          notices :=
            folded s.enabled s.timer.roundCount (if g = s.grant.ownGrant then [] else [grantNotice g])
              s.notices })

/-- The three amounts of a run and its chain, from the view alone: the candidates with the figures they take part
with, each once (where the view lists no peer twice and none as the own station, as every frozen one does), by offer energy, then departure (a missing one earliest), then station number. -/
def Obligations.ChainOfAView : Prop :=
  (∀ v : RoundView,
     let held := v.peers.filter fun r => !r.received
     let scaled := if v.census = 0 then 0 else v.budget * v.liveCount / v.census
     v.available = scaled - (held.map fun r => r.core.announced).sum ∧
     (v.liveCount ≤ v.census → v.available ≤ v.budget) ∧
     ∀ c : ChainMember,
       c ∈ v.candidates ↔
         (∃ o, v.sent = some o ∧ v.ownState = .member ∧ 0 < v.ownOffer.power ∧ 0 < o.power ∧
           c = ⟨v.ownNumber, o.power, o.energy, v.ownDeparture⟩) ∨
         ∃ r ∈ v.peers, r.received = true ∧ r.core.state = .member ∧ 0 < r.core.offerPower ∧
           c = ⟨r.number, r.core.offerPower, r.core.offerEnergy, r.departure⟩) ∧
  (∀ v : RoundView, (v.peers.map fun r => r.number).Nodup → (∀ r ∈ v.peers, r.number ≠ v.ownNumber) →
     (v.candidates.map fun c => c.number).Nodup) ∧
  ((∀ a b : ChainMember,
     a.before b = true ↔
       b.energy < a.energy ∨
       (a.energy = b.energy ∧
         ((∃ d, a.departure = some d ∧ (b.departure = none ∨ ∃ d', b.departure = some d' ∧ d' < d)) ∨
           (a.departure = b.departure ∧ a.number ≤ b.number)))) ∧
   ∀ v : RoundView, v.chain.Perm v.candidates ∧ v.chain.Pairwise fun a b => a.before b = true)

/-- A view's grants are those of the two passes over its chain with its available budget. The two passes over a chain
with available budget a: each member's grant, none above its offer power, all together no more than a. -/
def Obligations.GrantsOfTheTwoPasses : Prop :=
  (∀ v : RoundView, v.grants = twoPasses v.available v.chain) ∧
  ∀ (a : Nat) (chain : List ChainMember),
    let gs := twoPasses a chain
    let first (m : ChainMember) : Nat := min m.power (a / chain.length)
    let remainder := a - (chain.map first).sum
    gs.map Prod.fst = chain ∧ (gs.map Prod.snd).sum ≤ a ∧ (∀ p ∈ gs, p.2 ≤ p.1.power) ∧
    ∀ i m g, gs[i]? = some (m, g) →
      let taken := ((gs.take i).map fun p => p.2 - first p.1).sum
      g = first m + min (m.power - first m) (remainder - taken)

/-- The grant list holds one pair for each chain member, in ascending station number, and the digest is the CRC-16
over its pairs. Two stations whose chains hold the same members with the same figures, and whose available budgets are
equal, form the same grant list and the same digest, in whatever order their views list the members. -/
def Obligations.SameFiguresSameDigest : Prop :=
  (∀ v : RoundView,
     v.grantList.Perm (v.grants.map fun g => (g.1.number, g.2)) ∧
     v.grantList.Pairwise (fun p q => p.1 ≤ q.1) ∧
     v.grantDigest = crc16 (v.grantList.flatMap fun p => [byte p.1, byte p.2]) ∧
     (v.candidates = [] → v.grantDigest = 0)) ∧
  (∀ v w : RoundView, (v.candidates.map fun c => c.number).Nodup → v.candidates.Perm w.candidates →
     v.available = w.available → v.grantList = w.grantList ∧ v.grantDigest = w.grantDigest)

/-! ### Readiness -/

/-- The energy estimate: present with a profile and a reading, floor(C·s/1000) less the tally in whole kWh
rounded up, 0 where that is negative. The tally is held in kW·µs. -/
def Obligations.EnergyEstimate : Prop :=
  ∀ (r : ReadinessUnit) (causes : HoldCauses) (cfg : Option Configuration),
    let e := (r.computed causes cfg).estimate
    ((r.profile = none ∨ r.reading = none) → e = none) ∧
    ∀ p h, r.profile = some p → r.reading = some h →
      ∃ n, e = some n ∧
        (∀ spent : Nat, h.tally ≤ spent * 3600000000 → (∀ k, h.tally ≤ k * 3600000000 → spent ≤ k) →
          (n : Int) = max 0 (((p.capacity * h.charge / 1000 : Nat) : Int) - spent)) ∧
        (p.capacity ≤ 400 → h.charge ≤ 1000 → n ≤ 400) ∧
        (0 < h.tally → n ≤ p.capacity * h.charge / 1000 - 1)

/-- The readiness floor: present with a profile, from need, refill minutes and refill credit, no reading in it. -/
def Obligations.ReadinessFloor : Prop :=
  ∀ (r : ReadinessUnit) (causes : HoldCauses) (c : Configuration),
    let floor := (r.computed causes (some c)).floor
    (r.profile = none → floor = none) ∧
    ∀ p, r.profile = some p →
      let need := (p.need * (100 + p.coldMargin) + 99) / 100
      let minutes := ((p.departure : Int) - (c.windowEnd : Int)) % 1440
      let credit := (p.chargeLimit : Int) * minutes * 9 / 600
      let hard := (p.capacity * p.hardFloor + 99) / 100
      ∃ n, floor = some n ∧
        (n : Int) = min (p.capacity : Int) (max (hard : Int) ((need : Int) - credit)) ∧
        0 ≤ minutes ∧ minutes ≤ 1439 ∧
        (p.need ≤ 400 → p.coldMargin ≤ 100 → need ≤ 800) ∧ (p.capacity ≤ 400 → n ≤ 400)

/-- Offer energy and offer power from estimate, floor, reading, stage rating and causes. -/
def Obligations.OfferFigures : Prop :=
  ∀ (r : ReadinessUnit) (causes : HoldCauses) (c : Configuration),
    let R := r.computed causes (some c)
    R =
      { r with
        estimate := R.estimate, floor := R.floor, offerEnergy := R.offerEnergy, offerPower := R.offerPower } ∧
    (∀ e f, R.estimate = some e → R.floor = some f → f < e → R.offerEnergy = e - f) ∧
    (∀ e f, R.estimate = some e → R.floor = some f → e ≤ f → R.offerEnergy = 0) ∧
    ((R.estimate = none ∨ R.floor = none) → R.offerEnergy = 0) ∧
    (∀ causes', (r.computed causes' (some c)).offerEnergy = R.offerEnergy) ∧
    ((r.reading = none ∨ R.offerEnergy = 0 ∨ causes ≠ .empty) → R.offerPower = 0) ∧
    (∀ h, r.reading = some h → R.offerEnergy ≠ 0 → causes = .empty →
      let base := min h.dischargeLimit c.stageRating
      (h.temperature ≤ -16 → R.offerPower = 0) ∧
      (-15 ≤ h.temperature → h.temperature ≤ -1 → R.offerPower = base / 2) ∧
      (0 ≤ h.temperature → h.temperature ≤ 55 → R.offerPower = base) ∧
      (56 ≤ h.temperature → R.offerPower = 0)) ∧
    (c.stageRating ≤ 150 → R.offerPower ≤ 150)

/-- The deviation test of a reading, and what is announced while the flag is set. -/
def Obligations.DeviationCount : Prop :=
  (∀ measured applied : Nat,
    deviates measured applied = true ↔
      max 3 (applied / 10) < ((measured : Int) - (applied : Int)).natAbs) ∧
  (∀ (count : Nat) (flag : Bool), count ≤ 2 →
    deviationStep count flag flag = (0, flag) ∧
    (count = 2 → deviationStep count flag (!flag) = (0, !flag)) ∧
    (count < 2 → deviationStep count flag (!flag) = (count + 1, flag))) ∧
  ∀ (r : ReadinessUnit) (applied : Nat),
    (∀ h, r.reading = some h → r.deviationFlag = true → applied < h.measured →
      announcedFor r applied = h.measured) ∧
    ((r.reading = none ∨ r.deviationFlag = false ∨ ∀ h, r.reading = some h → h.measured ≤ applied) →
      announcedFor r applied = applied)

/-! ### Causes and inputs -/

/-- A change of the cause set: state in MEMBER and HOLDING, and the figures, follow it; a set that does not change
changes nothing. -/
def Obligations.CausesMoveTheState : Prop :=
  ∀ (c : HoldCauses) (s : State),
    let t := s.setCauses c
    (c = .empty ↔
      c.noBus = false ∧ c.noProfile = false ∧ c.noReading = false ∧ c.lapse = false ∧ c.stop = false ∧
      c.withdrawn = false) ∧
    (c = s.control.causes → t = s) ∧
    (c ≠ s.control.causes →
      t =
        { s with
          control :=
            { s.control with
              causes := c
              state :=
                if s.control.state = .member ∨ s.control.state = .holding then
                  (if c = .empty then .member else .holding)
                else s.control.state }
          readiness := s.readiness.computed c s.control.configuration } ∧
      (c ≠ .empty → t.readiness.offerPower = 0))

/-- PLUG_FALL and PLUG_RISE: in JOINING, MEMBER, HOLDING and LEAVING a fall discards profile and reading and adds
NO_BUS, a rise removes NO_BUS and adds NO_PROFILE and NO_READING, and export is zeroed; in OFFLINE and FAULTED the
input alone moves, and a level that does not change is no event. -/
def Obligations.PlugChanges : Prop :=
  ∀ (dt : Nat) (s : State), s.running = true →
    let m := s.advance dt
    let watched : Prop :=
      s.control.state = .joining ∨ s.control.state = .member ∨ s.control.state = .holding ∨
      s.control.state = .leaving
    let fallen := { s.control.causes with noBus := true }
    let risen := { s.control.causes with noBus := false, noProfile := true, noReading := true }
    (s.inputs.plug = true → watched →
      exec (.plugFall dt) s =
        .next (State.settle
          { m with
            inputs := { s.inputs with plug := false }
            control := (s.setCauses fallen).control
            readiness := ReadinessUnit.reset
            setpoint := s.setpoint.at_ 0 s.control.configuration ReadinessUnit.reset })) ∧
    (s.inputs.plug = false → watched →
      exec (.plugRise dt) s =
        .next (State.settle
          { m with
            inputs := { s.inputs with plug := true }
            control := (s.setCauses risen).control
            readiness := (m.setCauses risen).readiness
            setpoint := s.setpoint.at_ 0 s.control.configuration m.readiness })) ∧
    ((s.control.state = .offline ∨ s.control.state = .faulted) →
      exec (.plugFall dt) s = .next (State.settle { m with inputs := { s.inputs with plug := false } }) ∧
      exec (.plugRise dt) s = .next (State.settle { m with inputs := { s.inputs with plug := true } })) ∧
    (s.inputs.plug = false → exec (.plugFall dt) s = .next m.settle) ∧
    (s.inputs.plug = true → exec (.plugRise dt) s = .next m.settle)

/-- STOP_ACTIVE and STOP_RELEASE: the STOP cause with STOP_CHANGED, export zeroed while it is active; in FAULTED the
notice alone, in OFFLINE the input alone. -/
def Obligations.StopChanges : Prop :=
  ∀ (dt : Nat) (s : State), s.running = true →
    let m := s.advance dt
    let noticed (active : Bool) :=
      folded s.enabled s.timer.roundCount
        [{ kind := .stopChanged, subject := none, value := .stop active }] s.notices
    let watched : Prop :=
      s.control.state = .joining ∨ s.control.state = .member ∨ s.control.state = .holding ∨
      s.control.state = .leaving
    let pressed := m.setCauses { s.control.causes with stop := true }
    let freed := m.setCauses { s.control.causes with stop := false }
    let active : State := { m with inputs := { s.inputs with stop := true } }
    let released : State := { m with inputs := { s.inputs with stop := false } }
    (s.inputs.stop = false → watched →
      exec (.stopActive dt) s =
        .next (State.settle
          { active with
            control := pressed.control, readiness := pressed.readiness
            setpoint := s.setpoint.at_ 0 s.control.configuration m.readiness
            notices := noticed true })) ∧
    (s.inputs.stop = true → watched →
      exec (.stopRelease dt) s =
        .next (State.settle
          { released with
            control := freed.control, readiness := freed.readiness, notices := noticed false })) ∧
    (s.control.state = .faulted →
      (s.inputs.stop = false →
        exec (.stopActive dt) s = .next (State.settle { active with notices := noticed true })) ∧
      (s.inputs.stop = true →
        exec (.stopRelease dt) s = .next (State.settle { released with notices := noticed false }))) ∧
    (s.control.state = .offline →
      exec (.stopActive dt) s = .next active.settle ∧ exec (.stopRelease dt) s = .next released.settle) ∧
    (s.inputs.stop = true → exec (.stopActive dt) s = .next m.settle) ∧
    (s.inputs.stop = false → exec (.stopRelease dt) s = .next m.settle)

/-- READING_LAPSE, once the reading age has passed the lapse time: one report per reading with its notice, and in
JOINING, MEMBER, HOLDING and LEAVING the LAPSE cause and a zeroing; before that, nothing. -/
def Obligations.ReadingsLapse : Prop :=
  ∀ (dt : Nat) (s : State) (r : HeldReading) (c : Configuration), s.running = true →
    s.readiness.reading = some r → s.control.configuration = some c →
    let m := s.advance dt
    let due : Prop :=
      s.readiness.lapseReported = false ∧ c.lapseTime * 1000000 < min 65535000000 (r.age + dt)
    let reported : State :=
      { m with
        readiness := { m.readiness with lapseReported := true }
        notices :=
          folded s.enabled s.timer.roundCount [numbered .readingLapsed c.lapseTime] s.notices }
    let lapsed := reported.setCauses { s.control.causes with lapse := true }
    let watched : Prop :=
      s.control.state = .joining ∨ s.control.state = .member ∨ s.control.state = .holding ∨
      s.control.state = .leaving
    (due → watched →
      exec (.readingLapse dt) s =
        .next (State.settle
          { lapsed with setpoint := s.setpoint.at_ 0 s.control.configuration m.readiness })) ∧
    (due → ¬watched → exec (.readingLapse dt) s = .next reported.settle) ∧
    (¬due → exec (.readingLapse dt) s = .next m.settle)

/-- GRID_INPUT_CHANGE sets its contact's level and nothing else. STAGE_PERIOD_START lets the line take up the duty;
periods are 1,000 µs apart, so before the running one is over it does nothing, and a later one starts the period that the
thousands put there. In each period the line is high for the duty's thousandths from its start. The first period starts
where the command says: the phase is left open (the model's choice, log entry 16). -/
def Obligations.GridAndStagePeriod : Prop :=
  ∀ (dt : Nat) (l l' : GridLine) (level : Bool) (s : State), s.running = true →
    let m := s.advance dt
    exec (.gridInputChange dt l level) s =
      .next (State.settle { m with inputs := { s.inputs with grid := quadSet s.inputs.grid l level } }) ∧
    quadGet (quadSet s.inputs.grid l level) l' = (if l' = l then level else quadGet s.inputs.grid l') ∧
    (s.setpoint.periodStart = none →
      s.stageHigh = false ∧
      exec (.stagePeriodStart dt) s =
        .next (State.settle
          { m with
            setpoint := { s.setpoint with lineDuty := s.setpoint.duty, periodStart := some m.now } })) ∧
    ∀ p, s.setpoint.periodStart = some p →
      (m.now < p + 1000 → exec (.stagePeriodStart dt) s = .next m.settle) ∧
      ∀ k : Nat,
        (1 ≤ k → p + 1000 * k ≤ m.now → m.now < p + 1000 * (k + 1) →
          exec (.stagePeriodStart dt) s =
            .next (State.settle
              { m with
                setpoint :=
                  { s.setpoint with lineDuty := s.setpoint.duty, periodStart := some (p + 1000 * k) } })) ∧
        (p + 1000 * k ≤ s.now → s.now < p + 1000 * (k + 1) →
          (s.stageHigh = true ↔ s.now < p + 1000 * k + s.setpoint.lineDuty))

/-! ### The own window -/

/-- When a contact matches at a sample, the pattern match and pattern close, the clock window, and the open and the close
condition. The own window's step from each state: the held target, which a counted match in mode RANKED sets from the
first line that shows; how the window opens, closes, reopens and winds down, with its budget. And which of the three
window notices an allocation point makes, at most one. -/
def Obligations.WindowStepsAndNotices : Prop :=
  (∀ (α : Type) (q : Quad α), [.g0, .g1, .g2, .g3].map (quadGet q) = [q.g0, q.g1, q.g2, q.g3]) ∧
  (∀ (k : LineCondition) (before : Option Bool) (level : Bool),
    lineMatches k before level = true ↔
      (k = .levelHigh ∧ level = true) ∨ (k = .levelLow ∧ level = false) ∨
      (k = .rising ∧ before = some false ∧ level = true) ∨
      (k = .falling ∧ before = some true ∧ level = false) ∨
      (k = .either ∧ before = some (!level))) ∧
  (∀ (c : Configuration) (previous : Option Sample) (levels : Quad Bool) (matched : Bool) (minute held : Nat),
    let i : StepInput := { matched := matched, previous := previous, levels := levels, minute := minute }
    let cared (l : GridLine) : Prop := (quadGet c.grid l).care = true
    let shows (l : GridLine) : Prop :=
      cared l ∧
      lineMatches (quadGet c.grid l).condition (previous.map fun p => quadGet p.levels l) (quadGet levels l) =
        true
    let inside : Prop := insideClock c minute = true
    let counts : Prop := matched = true ∧ (c.clockEnabled = true → inside)
    (patternMatch c previous levels = true ↔
      (c.mode = .all ∧ (∃ l, cared l) ∧ ∀ l, cared l → shows l) ∨
      ((c.mode = .any ∨ c.mode = .ranked) ∧ ∃ l, shows l)) ∧
    (patternClose c previous matched = true ↔
      c.mode ≠ .none ∧
      (∀ l, cared l →
        (quadGet c.grid l).condition = .levelHigh ∨ (quadGet c.grid l).condition = .levelLow) ∧
      matched = false ∧ ∀ p, previous = some p → p.matched = false) ∧
    (c.clockStart < c.clockEnd → (inside ↔ c.clockStart ≤ minute ∧ minute < c.clockEnd)) ∧
    (c.clockEnd < c.clockStart → (inside ↔ c.clockStart ≤ minute ∨ minute < c.clockEnd)) ∧
    (openCondition c i = true ↔
      (c.mode = .none ∧ c.clockEnabled = true ∧ inside) ∨ (c.mode ≠ .none ∧ counts)) ∧
    (∀ exhausted,
      closeCondition c i exhausted = true ↔
        patternClose c previous matched = true ∨ (c.clockEnabled = true ∧ ¬inside) ∨ exhausted = true) ∧
    (¬(c.mode = .ranked ∧ counts) → heldTargetStep c i held = held) ∧
    (c.mode = .ranked → counts →
      let order : List GridLine := [.g0, .g1, .g2, .g3]
      (∀ (k : Nat) (l : GridLine), order[k]? = some l → shows l →
          (∀ j < k, ∀ l', order[j]? = some l' → ¬shows l') →
        heldTargetStep c i held = quadGet c.levels l) ∧
      ((∀ l, ¬shows l) → heldTargetStep c i held = held))) ∧
  (∀ (c : Configuration) (i : StepInput) (w : OwnWindow),
     let t := stepWindow c i w
     let opens := openCondition c i
     let target := heldTargetStep c i w.heldTarget
     let limit := min (if c.mode = .ranked then target else c.baseTarget) c.depotLimit
     (w.state = .closed → opens = true →
       t =
         { w with
           state := .opened, sequence := (w.sequence + 1) % 16, maxDuration := c.maxRounds
           exhausted := false, windDown := 0, heldTarget := target, budget := limit }) ∧
     (w.state = .closed → opens = false → t = { w with heldTarget := target, budget := 0 }) ∧
     (w.state = .opened →
       let spent := w.exhausted || decide (w.maxDuration - 1 = 0)
       let u := { w with maxDuration := w.maxDuration - 1, exhausted := spent, heldTarget := target }
       (closeCondition c i spent = true → 1 ≤ c.windDown →
         t = { u with state := .winding, base := w.budget, windDown := c.windDown, budget := w.budget }) ∧
       (closeCondition c i spent = false → t = { u with budget := limit })) ∧
     (w.state = .winding →
       (opens = true → w.exhausted = false →
         t = { w with state := .opened, windDown := 0, heldTarget := target, budget := limit }) ∧
       ((opens = false ∨ w.exhausted = true) →
         (w.windDown ≤ 1 →
           t =
             { w with
               state := .closed, windDown := 0, base := 0, heldTarget := target, budget := 0 }) ∧
         (1 < w.windDown →
           t =
             { w with
               windDown := w.windDown - 1, heldTarget := target
               budget := w.base * (w.windDown - 1) / c.windDown })))) ∧
  (∀ held adopted : SignalPart,
     (adopted.state = .closed → held.state = .closed → windowNotices held adopted = []) ∧
     (adopted.state = .closed → held.state ≠ .closed →
       windowNotices held adopted = [numbered .windowClosed held.sequence]) ∧
     (adopted.state ≠ .closed → (held.state = .closed ∨ held.sequence ≠ adopted.sequence) →
       windowNotices held adopted = [numbered .windowOpened adopted.sequence]) ∧
     (adopted.state ≠ .closed → held.state ≠ .closed → held.sequence = adopted.sequence →
       windowNotices held adopted =
         if adopted.state = .opened ∧ held.budget ≠ adopted.budget then
           [numbered .targetChanged adopted.budget]
         else []))

/-! ### Invariants -/

/-- The reset state satisfies every invariant stated below. -/
def Obligations.ResetSatisfiesTheInvariants : Prop :=
  StationWf State.reset ∧ CausesFollow State.reset ∧ ExportSafe State.reset ∧ LinkConsistent State.reset ∧
  NoticeQueueWf State.reset ∧ PeerTableWf State.reset ∧ CensusBound State.reset ∧ RatingBound State.reset

/-- Every step keeps the station's well-formedness, the rule that MEMBER has no cause and HOLDING one, and the export
bound: applied export is 0 outside MEMBER, never above the own grant, and STAGE and PERMIT follow it. -/
def Obligations.StepsKeepExportSafe : Prop :=
  ∀ s t : State, StationWf s → CausesFollow s → step s = .next t →
    StationWf t ∧ CausesFollow t ∧ (ExportSafe s → ExportSafe t)

/-- Every step keeps the post link consistent: BUSY exactly while a request is in flight, DONE while a response
waits, never both. -/
def Obligations.StepsKeepTheLink : Prop :=
  ∀ s t : State, StationWf s → LinkConsistent s → step s = .next t → LinkConsistent t

/-- Every step keeps the notice queue well-formed: one entry for each kind and subject, at most 47. -/
def Obligations.StepsKeepTheQueue : Prop :=
  ∀ s t : State, StationWf s → PeerTableWf s → NoticeQueueWf s → step s = .next t → NoticeQueueWf t

/-- Every step keeps the peer table well-formed and the census no smaller than the live count. -/
def Obligations.StepsKeepThePeerTable : Prop :=
  ∀ s t : State, StationWf s → PeerTableWf s → CensusBound s → step s = .next t →
    PeerTableWf t ∧ CensusBound t

/-- Every step keeps offer, view and grant within the stage rating; with the export bound, STAGE's duty is then at
most 1000 per mille. -/
def Obligations.StepsKeepTheRatingBound : Prop :=
  (∀ s t : State, StationWf s → RatingBound s → step s = .next t → RatingBound t) ∧
  ∀ s : State, StationWf s → ExportSafe s → RatingBound s → s.setpoint.duty ≤ 1000
end

