-- ==== Sys2Proof/Laws/State.lean ====
section
/-! SUPPORT. What each shared operation leaves as it was: one lemma per operation, a conjunction that the
simplifier takes field by field, so that no proof unfolds a record update again. -/

namespace Sys2Proof.Machine

/-! ### Time and notices -/

@[simp] theorem State.advance_keeps (dt : Nat) (s : State) :
    (s.advance dt).inputs = s.inputs ∧ (s.advance dt).line = s.line ∧ (s.advance dt).timer = s.timer ∧
    (s.advance dt).control = s.control ∧ (s.advance dt).peers = s.peers ∧ (s.advance dt).plan = s.plan ∧
    (s.advance dt).grant = s.grant ∧ (s.advance dt).setpoint = s.setpoint ∧
    (s.advance dt).link = s.link ∧ (s.advance dt).notices = s.notices ∧
    (s.advance dt).freeIndex = s.freeIndex ∧ (s.advance dt).pending = s.pending := by
  unfold State.advance
  split <;> and_intros <;> rfl

@[simp] theorem State.notice_keeps (n : Notice) (s : State) :
    (s.notice n).inputs = s.inputs ∧ (s.notice n).line = s.line ∧ (s.notice n).timer = s.timer ∧
    (s.notice n).control = s.control ∧ (s.notice n).peers = s.peers ∧ (s.notice n).plan = s.plan ∧
    (s.notice n).window = s.window ∧ (s.notice n).readiness = s.readiness ∧
    (s.notice n).grant = s.grant ∧ (s.notice n).setpoint = s.setpoint ∧ (s.notice n).link = s.link ∧
    (s.notice n).now = s.now ∧ (s.notice n).freeIndex = s.freeIndex ∧ (s.notice n).pending = s.pending := by
  unfold State.notice
  split <;> and_intros <;> rfl

@[simp] theorem State.noticeAll_keeps (ns : List Notice) (s : State) :
    (s.noticeAll ns).inputs = s.inputs ∧ (s.noticeAll ns).line = s.line ∧
    (s.noticeAll ns).timer = s.timer ∧ (s.noticeAll ns).control = s.control ∧
    (s.noticeAll ns).peers = s.peers ∧ (s.noticeAll ns).plan = s.plan ∧
    (s.noticeAll ns).window = s.window ∧ (s.noticeAll ns).readiness = s.readiness ∧
    (s.noticeAll ns).grant = s.grant ∧ (s.noticeAll ns).setpoint = s.setpoint ∧
    (s.noticeAll ns).link = s.link ∧ (s.noticeAll ns).now = s.now ∧
    (s.noticeAll ns).freeIndex = s.freeIndex ∧ (s.noticeAll ns).pending = s.pending := by
  induction ns generalizing s with
  | nil => and_intros <;> rfl
  | cons n ns ih =>
    simpa only [State.noticeAll, List.foldl_cons, State.notice_keeps] using ih (s.notice n)

/-! ### Applied export and the offer -/

@[simp] theorem State.setApplied_keeps (a : Nat) (s : State) :
    (s.setApplied a).inputs = s.inputs ∧ (s.setApplied a).line = s.line ∧
    (s.setApplied a).timer = s.timer ∧ (s.setApplied a).control = s.control ∧
    (s.setApplied a).peers = s.peers ∧ (s.setApplied a).plan = s.plan ∧
    (s.setApplied a).window = s.window ∧ (s.setApplied a).readiness = s.readiness ∧
    (s.setApplied a).grant = s.grant ∧ (s.setApplied a).link = s.link ∧
    (s.setApplied a).notices = s.notices ∧ (s.setApplied a).now = s.now ∧
    (s.setApplied a).freeIndex = s.freeIndex ∧ (s.setApplied a).pending = s.pending := by and_intros <;> rfl

@[simp] theorem State.zeroExport_keeps (s : State) :
    s.zeroExport.inputs = s.inputs ∧ s.zeroExport.line = s.line ∧ s.zeroExport.timer = s.timer ∧
    s.zeroExport.control = s.control ∧ s.zeroExport.peers = s.peers ∧ s.zeroExport.plan = s.plan ∧
    s.zeroExport.window = s.window ∧ s.zeroExport.readiness = s.readiness ∧
    s.zeroExport.grant = s.grant ∧ s.zeroExport.link = s.link ∧ s.zeroExport.notices = s.notices ∧
    s.zeroExport.now = s.now ∧ s.zeroExport.freeIndex = s.freeIndex ∧ s.zeroExport.pending = s.pending := by and_intros <;> rfl

@[simp] theorem State.refreshAnnounced_keeps (s : State) :
    s.refreshAnnounced.inputs = s.inputs ∧ s.refreshAnnounced.line = s.line ∧
    s.refreshAnnounced.timer = s.timer ∧ s.refreshAnnounced.control = s.control ∧
    s.refreshAnnounced.peers = s.peers ∧ s.refreshAnnounced.plan = s.plan ∧
    s.refreshAnnounced.window = s.window ∧ s.refreshAnnounced.readiness = s.readiness ∧
    s.refreshAnnounced.grant = s.grant ∧ s.refreshAnnounced.link = s.link ∧
    s.refreshAnnounced.notices = s.notices ∧ s.refreshAnnounced.now = s.now ∧
    s.refreshAnnounced.freeIndex = s.freeIndex ∧ s.refreshAnnounced.pending = s.pending := by and_intros <;> rfl

@[simp] theorem State.computeOffer_keeps (s : State) :
    s.computeOffer.inputs = s.inputs ∧ s.computeOffer.line = s.line ∧ s.computeOffer.timer = s.timer ∧
    s.computeOffer.control = s.control ∧ s.computeOffer.peers = s.peers ∧ s.computeOffer.plan = s.plan ∧
    s.computeOffer.window = s.window ∧ s.computeOffer.grant = s.grant ∧
    s.computeOffer.setpoint = s.setpoint ∧ s.computeOffer.link = s.link ∧
    s.computeOffer.notices = s.notices ∧ s.computeOffer.now = s.now ∧
    s.computeOffer.freeIndex = s.freeIndex ∧ s.computeOffer.pending = s.pending := by and_intros <;> rfl

@[simp] theorem State.holdFloor_keeps (s : State) :
    s.holdFloor.inputs = s.inputs ∧ s.holdFloor.line = s.line ∧ s.holdFloor.timer = s.timer ∧
    s.holdFloor.control = s.control ∧ s.holdFloor.peers = s.peers ∧ s.holdFloor.plan = s.plan ∧
    s.holdFloor.window = s.window ∧ s.holdFloor.grant = s.grant ∧ s.holdFloor.link = s.link ∧
    s.holdFloor.notices = s.notices ∧ s.holdFloor.now = s.now ∧ s.holdFloor.freeIndex = s.freeIndex ∧
    s.holdFloor.pending = s.pending := by
  unfold State.holdFloor
  try dsimp only
  repeat' split
  all_goals simp

@[simp] theorem State.floorTest_keeps (s : State) :
    s.floorTest.inputs = s.inputs ∧ s.floorTest.line = s.line ∧ s.floorTest.timer = s.timer ∧
    s.floorTest.control = s.control ∧ s.floorTest.peers = s.peers ∧ s.floorTest.plan = s.plan ∧
    s.floorTest.window = s.window ∧ s.floorTest.grant = s.grant ∧ s.floorTest.link = s.link ∧
    s.floorTest.now = s.now ∧ s.floorTest.freeIndex = s.freeIndex ∧ s.floorTest.pending = s.pending := by
  unfold State.floorTest
  try dsimp only
  repeat' split
  all_goals simp

@[simp] theorem State.setCauses_keeps (c : HoldCauses) (s : State) :
    (s.setCauses c).inputs = s.inputs ∧ (s.setCauses c).line = s.line ∧
    (s.setCauses c).timer = s.timer ∧ (s.setCauses c).peers = s.peers ∧ (s.setCauses c).plan = s.plan ∧
    (s.setCauses c).window = s.window ∧ (s.setCauses c).grant = s.grant ∧
    (s.setCauses c).setpoint = s.setpoint ∧ (s.setCauses c).link = s.link ∧
    (s.setCauses c).notices = s.notices ∧ (s.setCauses c).now = s.now ∧
    (s.setCauses c).freeIndex = s.freeIndex ∧ (s.setCauses c).pending = s.pending := by
  unfold State.setCauses
  try dsimp only
  repeat' split
  all_goals simp

@[simp] theorem State.deviationTest_keeps (m : Nat) (s : State) :
    (s.deviationTest m).inputs = s.inputs ∧ (s.deviationTest m).line = s.line ∧
    (s.deviationTest m).timer = s.timer ∧ (s.deviationTest m).control = s.control ∧
    (s.deviationTest m).peers = s.peers ∧ (s.deviationTest m).plan = s.plan ∧
    (s.deviationTest m).window = s.window ∧ (s.deviationTest m).grant = s.grant ∧
    (s.deviationTest m).link = s.link ∧ (s.deviationTest m).now = s.now ∧
    (s.deviationTest m).freeIndex = s.freeIndex ∧ (s.deviationTest m).pending = s.pending := by
  unfold State.deviationTest
  try dsimp only
  repeat' split
  all_goals simp

/-! ### The post link -/

@[simp] theorem State.complete_keeps (k : Byte) (r : ResultCode) (fs : List Byte) (s : State) :
    (s.complete k r fs).inputs = s.inputs ∧ (s.complete k r fs).line = s.line ∧
    (s.complete k r fs).timer = s.timer ∧ (s.complete k r fs).control = s.control ∧
    (s.complete k r fs).peers = s.peers ∧ (s.complete k r fs).plan = s.plan ∧
    (s.complete k r fs).window = s.window ∧ (s.complete k r fs).readiness = s.readiness ∧
    (s.complete k r fs).grant = s.grant ∧ (s.complete k r fs).setpoint = s.setpoint ∧
    (s.complete k r fs).notices = s.notices ∧ (s.complete k r fs).now = s.now ∧
    (s.complete k r fs).freeIndex = s.freeIndex ∧ (s.complete k r fs).pending = s.pending := by and_intros <;> rfl

@[simp] theorem State.completeInFlight_keeps (r : ResultCode) (fs : List Byte) (s : State) :
    (s.completeInFlight r fs).inputs = s.inputs ∧ (s.completeInFlight r fs).line = s.line ∧
    (s.completeInFlight r fs).timer = s.timer ∧ (s.completeInFlight r fs).control = s.control ∧
    (s.completeInFlight r fs).peers = s.peers ∧ (s.completeInFlight r fs).plan = s.plan ∧
    (s.completeInFlight r fs).window = s.window ∧ (s.completeInFlight r fs).readiness = s.readiness ∧
    (s.completeInFlight r fs).grant = s.grant ∧ (s.completeInFlight r fs).setpoint = s.setpoint ∧
    (s.completeInFlight r fs).notices = s.notices ∧ (s.completeInFlight r fs).now = s.now ∧
    (s.completeInFlight r fs).freeIndex = s.freeIndex ∧ (s.completeInFlight r fs).pending = s.pending := by
  unfold State.completeInFlight
  try dsimp only
  repeat' split
  all_goals simp

@[simp] theorem State.completeFaulted_keeps (s : State) :
    s.completeFaulted.inputs = s.inputs ∧ s.completeFaulted.line = s.line ∧
    s.completeFaulted.timer = s.timer ∧ s.completeFaulted.control = s.control ∧
    s.completeFaulted.peers = s.peers ∧ s.completeFaulted.plan = s.plan ∧
    s.completeFaulted.window = s.window ∧ s.completeFaulted.readiness = s.readiness ∧
    s.completeFaulted.grant = s.grant ∧ s.completeFaulted.setpoint = s.setpoint ∧
    s.completeFaulted.notices = s.notices ∧ s.completeFaulted.now = s.now ∧
    s.completeFaulted.freeIndex = s.freeIndex ∧ s.completeFaulted.pending = s.pending := by
  unfold State.completeFaulted
  try dsimp only
  repeat' split
  all_goals simp

@[simp] theorem State.settle_keeps (s : State) :
    s.settle.inputs = s.inputs ∧ s.settle.line = s.line ∧ s.settle.timer = s.timer ∧
    s.settle.control = s.control ∧ s.settle.peers = s.peers ∧ s.settle.plan = s.plan ∧
    s.settle.window = s.window ∧ s.settle.readiness = s.readiness ∧ s.settle.grant = s.grant ∧
    s.settle.setpoint = s.setpoint ∧ s.settle.notices = s.notices ∧ s.settle.now = s.now ∧
    s.settle.freeIndex = s.freeIndex ∧ s.settle.pending = s.pending := by and_intros <;> rfl

@[simp] theorem State.sends_keeps (bs : List Byte) (s : State) :
    (s.sends bs).inputs = s.inputs ∧ (s.sends bs).line = s.line ∧ (s.sends bs).timer = s.timer ∧
    (s.sends bs).control = s.control ∧ (s.sends bs).peers = s.peers ∧ (s.sends bs).plan = s.plan ∧
    (s.sends bs).window = s.window ∧ (s.sends bs).readiness = s.readiness ∧
    (s.sends bs).grant = s.grant ∧ (s.sends bs).setpoint = s.setpoint ∧
    (s.sends bs).notices = s.notices ∧ (s.sends bs).now = s.now ∧ (s.sends bs).freeIndex = s.freeIndex ∧
    (s.sends bs).pending = s.pending := by and_intros <;> rfl

@[simp] theorem State.sendsOpen_keeps (bs : List Byte) (n : Nat) (s : State) :
    (s.sendsOpen bs n).inputs = s.inputs ∧ (s.sendsOpen bs n).line = s.line ∧
    (s.sendsOpen bs n).timer = s.timer ∧ (s.sendsOpen bs n).control = s.control ∧
    (s.sendsOpen bs n).peers = s.peers ∧ (s.sendsOpen bs n).plan = s.plan ∧
    (s.sendsOpen bs n).window = s.window ∧ (s.sendsOpen bs n).readiness = s.readiness ∧
    (s.sendsOpen bs n).grant = s.grant ∧ (s.sendsOpen bs n).setpoint = s.setpoint ∧
    (s.sendsOpen bs n).notices = s.notices ∧ (s.sendsOpen bs n).now = s.now ∧
    (s.sendsOpen bs n).pending = s.pending := by and_intros <;> rfl

@[simp] theorem State.openRequest_keeps (k l : Byte) (fs : List Byte) (s : State) :
    (s.openRequest k l fs).inputs = s.inputs ∧ (s.openRequest k l fs).line = s.line ∧
    (s.openRequest k l fs).timer = s.timer ∧ (s.openRequest k l fs).control = s.control ∧
    (s.openRequest k l fs).peers = s.peers ∧ (s.openRequest k l fs).plan = s.plan ∧
    (s.openRequest k l fs).window = s.window ∧ (s.openRequest k l fs).readiness = s.readiness ∧
    (s.openRequest k l fs).grant = s.grant ∧ (s.openRequest k l fs).setpoint = s.setpoint ∧
    (s.openRequest k l fs).notices = s.notices ∧ (s.openRequest k l fs).now = s.now ∧
    (s.openRequest k l fs).freeIndex = s.freeIndex ∧ (s.openRequest k l fs).pending = s.pending := by and_intros <;> rfl

@[simp] theorem State.readBack_keeps (n : Nat) (s : State) :
    (s.readBack n).inputs = s.inputs ∧ (s.readBack n).line = s.line ∧ (s.readBack n).timer = s.timer ∧
    (s.readBack n).control = s.control ∧ (s.readBack n).peers = s.peers ∧ (s.readBack n).plan = s.plan ∧
    (s.readBack n).window = s.window ∧ (s.readBack n).readiness = s.readiness ∧
    (s.readBack n).grant = s.grant ∧ (s.readBack n).setpoint = s.setpoint ∧
    (s.readBack n).notices = s.notices ∧ (s.readBack n).now = s.now ∧
    (s.readBack n).freeIndex = s.freeIndex ∧ (s.readBack n).pending = s.pending := by
  unfold State.readBack
  try dsimp only
  repeat' split
  all_goals simp

@[simp] theorem State.readFlags_keeps (n : Nat) (s : State) :
    (s.readFlags n).inputs = s.inputs ∧ (s.readFlags n).line = s.line ∧
    (s.readFlags n).timer = s.timer ∧ (s.readFlags n).control = s.control ∧
    (s.readFlags n).peers = s.peers ∧ (s.readFlags n).plan = s.plan ∧
    (s.readFlags n).window = s.window ∧ (s.readFlags n).readiness = s.readiness ∧
    (s.readFlags n).grant = s.grant ∧ (s.readFlags n).setpoint = s.setpoint ∧
    (s.readFlags n).notices = s.notices ∧ (s.readFlags n).now = s.now ∧
    (s.readFlags n).pending = s.pending := by
  unfold State.readFlags
  try dsimp only
  repeat' split
  all_goals simp

/-! ### Runs, FAULTED and resets -/

@[simp] theorem State.abortRun_keeps (s : State) :
    s.abortRun.inputs = s.inputs ∧ s.abortRun.line = s.line ∧ s.abortRun.control = s.control ∧
    s.abortRun.peers = s.peers ∧ s.abortRun.plan = s.plan ∧ s.abortRun.window = s.window ∧
    s.abortRun.readiness = s.readiness ∧ s.abortRun.setpoint = s.setpoint ∧ s.abortRun.link = s.link ∧
    s.abortRun.now = s.now ∧ s.abortRun.freeIndex = s.freeIndex ∧ s.abortRun.pending = s.pending := by
  unfold State.abortRun
  try dsimp only
  repeat' split
  all_goals simp

@[simp] theorem State.enterFaulted_keeps (e : Evidence) (g : Bool) (s : State) :
    (s.enterFaulted e g).inputs = s.inputs ∧ (s.enterFaulted e g).timer = s.timer ∧
    (s.enterFaulted e g).peers = s.peers ∧ (s.enterFaulted e g).plan = s.plan ∧
    (s.enterFaulted e g).window = s.window ∧ (s.enterFaulted e g).readiness = s.readiness ∧
    (s.enterFaulted e g).now = s.now ∧ (s.enterFaulted e g).freeIndex = s.freeIndex ∧
    (s.enterFaulted e g).pending = s.pending := by
  simp [State.enterFaulted]

@[simp] theorem State.powerOnValues_keeps (s : State) :
    s.powerOnValues.inputs = s.inputs ∧ s.powerOnValues.now = s.now ∧
    s.powerOnValues.freeIndex = s.freeIndex ∧ s.powerOnValues.pending = s.pending := by and_intros <;> rfl

@[simp] theorem State.offlineWith_keeps (k : Byte) (fs : List Byte) (q : List NoticeEntry) (s : State) :
    (s.offlineWith k fs q).inputs = s.inputs ∧ (s.offlineWith k fs q).now = s.now ∧
    (s.offlineWith k fs q).freeIndex = s.freeIndex ∧ (s.offlineWith k fs q).pending = s.pending := by and_intros <;> rfl

/-! ### Frames heard -/

@[simp] theorem State.storeFrame_keeps (f : Frame) (s : State) :
    (s.storeFrame f).inputs = s.inputs ∧ (s.storeFrame f).line = s.line ∧
    (s.storeFrame f).timer = s.timer ∧ (s.storeFrame f).control = s.control ∧
    (s.storeFrame f).plan = s.plan ∧ (s.storeFrame f).window = s.window ∧
    (s.storeFrame f).readiness = s.readiness ∧ (s.storeFrame f).grant = s.grant ∧
    (s.storeFrame f).setpoint = s.setpoint ∧ (s.storeFrame f).link = s.link ∧
    (s.storeFrame f).now = s.now ∧ (s.storeFrame f).freeIndex = s.freeIndex ∧
    (s.storeFrame f).pending = s.pending := by
  unfold State.storeFrame
  try dsimp only
  repeat' split
  all_goals simp

@[simp] theorem State.countCorrupt_keeps (s : State) :
    s.countCorrupt.inputs = s.inputs ∧ s.countCorrupt.timer = s.timer ∧
    s.countCorrupt.control = s.control ∧ s.countCorrupt.peers = s.peers ∧ s.countCorrupt.plan = s.plan ∧
    s.countCorrupt.window = s.window ∧ s.countCorrupt.readiness = s.readiness ∧
    s.countCorrupt.grant = s.grant ∧ s.countCorrupt.setpoint = s.setpoint ∧
    s.countCorrupt.link = s.link ∧ s.countCorrupt.notices = s.notices ∧ s.countCorrupt.now = s.now ∧
    s.countCorrupt.freeIndex = s.freeIndex ∧ s.countCorrupt.pending = s.pending := by and_intros <;> rfl

@[simp] theorem State.reanchor_keeps (a : Instant) (s : State) :
    (s.reanchor a).inputs = s.inputs ∧ (s.reanchor a).line = s.line ∧
    (s.reanchor a).control = s.control ∧ (s.reanchor a).peers = s.peers ∧ (s.reanchor a).plan = s.plan ∧
    (s.reanchor a).window = s.window ∧ (s.reanchor a).readiness = s.readiness ∧
    (s.reanchor a).setpoint = s.setpoint ∧ (s.reanchor a).link = s.link ∧ (s.reanchor a).now = s.now ∧
    (s.reanchor a).freeIndex = s.freeIndex ∧ (s.reanchor a).pending = s.pending := by
  simp [State.reanchor]

@[simp] theorem State.judgeClock_keeps (f : Frame) (s : State) :
    (s.judgeClock f).inputs = s.inputs ∧ (s.judgeClock f).line = s.line ∧
    (s.judgeClock f).timer = s.timer ∧ (s.judgeClock f).control = s.control ∧
    (s.judgeClock f).peers = s.peers ∧ (s.judgeClock f).plan = s.plan ∧
    (s.judgeClock f).readiness = s.readiness ∧ (s.judgeClock f).grant = s.grant ∧
    (s.judgeClock f).setpoint = s.setpoint ∧ (s.judgeClock f).link = s.link ∧
    (s.judgeClock f).now = s.now ∧ (s.judgeClock f).freeIndex = s.freeIndex ∧
    (s.judgeClock f).pending = s.pending := by
  unfold State.judgeClock
  try dsimp only
  repeat' split
  all_goals simp

@[simp] theorem State.windowSample_keeps (a : Instant) (s : State) :
    (s.windowSample a).inputs = s.inputs ∧ (s.windowSample a).line = s.line ∧
    (s.windowSample a).timer = s.timer ∧ (s.windowSample a).control = s.control ∧
    (s.windowSample a).peers = s.peers ∧ (s.windowSample a).plan = s.plan ∧
    (s.windowSample a).readiness = s.readiness ∧ (s.windowSample a).grant = s.grant ∧
    (s.windowSample a).setpoint = s.setpoint ∧ (s.windowSample a).link = s.link ∧
    (s.windowSample a).notices = s.notices ∧ (s.windowSample a).now = s.now ∧
    (s.windowSample a).freeIndex = s.freeIndex ∧ (s.windowSample a).pending = s.pending := by
  unfold State.windowSample
  try dsimp only
  repeat' split
  all_goals simp

/-! ### Rounds -/

@[simp] theorem State.reportRound_keeps (s : State) :
    s.reportRound.inputs = s.inputs ∧ s.reportRound.line = s.line ∧ s.reportRound.control = s.control ∧
    s.reportRound.peers = s.peers ∧ s.reportRound.plan = s.plan ∧ s.reportRound.window = s.window ∧
    s.reportRound.readiness = s.readiness ∧ s.reportRound.link = s.link ∧ s.reportRound.now = s.now ∧
    s.reportRound.freeIndex = s.freeIndex ∧ s.reportRound.pending = s.pending := by
  unfold State.reportRound
  try dsimp only
  repeat' split
  all_goals simp

@[simp] theorem State.openRound_keeps (a : Instant) (s : State) :
    (s.openRound a).inputs = s.inputs ∧ (s.openRound a).line = s.line ∧
    (s.openRound a).control = s.control ∧ (s.openRound a).peers = s.peers ∧
    (s.openRound a).plan = s.plan ∧ (s.openRound a).readiness = s.readiness ∧
    (s.openRound a).link = s.link ∧ (s.openRound a).now = s.now ∧
    (s.openRound a).freeIndex = s.freeIndex ∧ (s.openRound a).pending = s.pending := by
  simp [State.openRound]

@[simp] theorem State.sendMark_keeps (a : Instant) (i : Bool) (s : State) :
    (s.sendMark a i).inputs = s.inputs ∧ (s.sendMark a i).timer = s.timer ∧
    (s.sendMark a i).control = s.control ∧ (s.sendMark a i).peers = s.peers ∧
    (s.sendMark a i).plan = s.plan ∧ (s.sendMark a i).window = s.window ∧
    (s.sendMark a i).readiness = s.readiness ∧ (s.sendMark a i).grant = s.grant ∧
    (s.sendMark a i).setpoint = s.setpoint ∧ (s.sendMark a i).link = s.link ∧
    (s.sendMark a i).notices = s.notices ∧ (s.sendMark a i).now = s.now ∧
    (s.sendMark a i).freeIndex = s.freeIndex ∧ (s.sendMark a i).pending = s.pending := by
  unfold State.sendMark
  try dsimp only
  repeat' split
  all_goals simp

@[simp] theorem State.handFrame_keeps (a o : Instant) (st : AnnouncedState) (i : Bool) (s : State) :
    (s.handFrame a o st i).inputs = s.inputs ∧ (s.handFrame a o st i).timer = s.timer ∧
    (s.handFrame a o st i).peers = s.peers ∧ (s.handFrame a o st i).window = s.window ∧
    (s.handFrame a o st i).readiness = s.readiness ∧ (s.handFrame a o st i).grant = s.grant ∧
    (s.handFrame a o st i).setpoint = s.setpoint ∧ (s.handFrame a o st i).link = s.link ∧
    (s.handFrame a o st i).notices = s.notices ∧ (s.handFrame a o st i).now = s.now ∧
    (s.handFrame a o st i).freeIndex = s.freeIndex ∧ (s.handFrame a o st i).pending = s.pending := by and_intros <;> rfl

@[simp] theorem State.copyCorrupt_keeps (s : State) :
    s.copyCorrupt.1.inputs = s.inputs ∧ s.copyCorrupt.1.timer = s.timer ∧
    s.copyCorrupt.1.control = s.control ∧ s.copyCorrupt.1.peers = s.peers ∧
    s.copyCorrupt.1.plan = s.plan ∧ s.copyCorrupt.1.window = s.window ∧
    s.copyCorrupt.1.readiness = s.readiness ∧ s.copyCorrupt.1.grant = s.grant ∧
    s.copyCorrupt.1.setpoint = s.setpoint ∧ s.copyCorrupt.1.link = s.link ∧
    s.copyCorrupt.1.notices = s.notices ∧ s.copyCorrupt.1.now = s.now ∧
    s.copyCorrupt.1.freeIndex = s.freeIndex ∧ s.copyCorrupt.1.pending = s.pending := by and_intros <;> rfl

@[simp] theorem State.agePeers_keeps (s : State) :
    s.agePeers.1.inputs = s.inputs ∧ s.agePeers.1.line = s.line ∧ s.agePeers.1.timer = s.timer ∧
    s.agePeers.1.control = s.control ∧ s.agePeers.1.plan = s.plan ∧ s.agePeers.1.window = s.window ∧
    s.agePeers.1.readiness = s.readiness ∧ s.agePeers.1.grant = s.grant ∧
    s.agePeers.1.setpoint = s.setpoint ∧ s.agePeers.1.link = s.link ∧ s.agePeers.1.notices = s.notices ∧
    s.agePeers.1.now = s.now ∧ s.agePeers.1.freeIndex = s.freeIndex ∧ s.agePeers.1.pending = s.pending := by and_intros <;> rfl

@[simp] theorem State.adoptWindow_keeps (s : State) :
    s.adoptWindow.1.inputs = s.inputs ∧ s.adoptWindow.1.line = s.line ∧
    s.adoptWindow.1.timer = s.timer ∧ s.adoptWindow.1.control = s.control ∧
    s.adoptWindow.1.peers = s.peers ∧ s.adoptWindow.1.plan = s.plan ∧
    s.adoptWindow.1.readiness = s.readiness ∧ s.adoptWindow.1.grant = s.grant ∧
    s.adoptWindow.1.setpoint = s.setpoint ∧ s.adoptWindow.1.link = s.link ∧
    s.adoptWindow.1.notices = s.notices ∧ s.adoptWindow.1.now = s.now ∧
    s.adoptWindow.1.freeIndex = s.freeIndex ∧ s.adoptWindow.1.pending = s.pending := by and_intros <;> rfl

@[simp] theorem State.fixCensus_keeps (w : SignalPart) (s : State) :
    (s.fixCensus w).inputs = s.inputs ∧ (s.fixCensus w).line = s.line ∧
    (s.fixCensus w).timer = s.timer ∧ (s.fixCensus w).control = s.control ∧
    (s.fixCensus w).plan = s.plan ∧ (s.fixCensus w).window = s.window ∧
    (s.fixCensus w).readiness = s.readiness ∧ (s.fixCensus w).grant = s.grant ∧
    (s.fixCensus w).setpoint = s.setpoint ∧ (s.fixCensus w).link = s.link ∧
    (s.fixCensus w).notices = s.notices ∧ (s.fixCensus w).now = s.now ∧
    (s.fixCensus w).freeIndex = s.freeIndex ∧ (s.fixCensus w).pending = s.pending := by and_intros <;> rfl

@[simp] theorem State.judgeIsolation_keeps (s : State) :
    s.judgeIsolation.1.inputs = s.inputs ∧ s.judgeIsolation.1.line = s.line ∧
    s.judgeIsolation.1.timer = s.timer ∧ s.judgeIsolation.1.peers = s.peers ∧
    s.judgeIsolation.1.plan = s.plan ∧ s.judgeIsolation.1.window = s.window ∧
    s.judgeIsolation.1.readiness = s.readiness ∧ s.judgeIsolation.1.grant = s.grant ∧
    s.judgeIsolation.1.setpoint = s.setpoint ∧ s.judgeIsolation.1.link = s.link ∧
    s.judgeIsolation.1.notices = s.notices ∧ s.judgeIsolation.1.now = s.now ∧
    s.judgeIsolation.1.freeIndex = s.freeIndex ∧ s.judgeIsolation.1.pending = s.pending := by
  unfold State.judgeIsolation
  try dsimp only
  repeat' split
  all_goals simp

@[simp] theorem State.offerAtAllocation_keeps (s : State) :
    s.offerAtAllocation.1.inputs = s.inputs ∧ s.offerAtAllocation.1.line = s.line ∧
    s.offerAtAllocation.1.timer = s.timer ∧ s.offerAtAllocation.1.control = s.control ∧
    s.offerAtAllocation.1.peers = s.peers ∧ s.offerAtAllocation.1.plan = s.plan ∧
    s.offerAtAllocation.1.window = s.window ∧ s.offerAtAllocation.1.grant = s.grant ∧
    s.offerAtAllocation.1.link = s.link ∧ s.offerAtAllocation.1.notices = s.notices ∧
    s.offerAtAllocation.1.now = s.now ∧ s.offerAtAllocation.1.freeIndex = s.freeIndex ∧
    s.offerAtAllocation.1.pending = s.pending := by
  simp [State.offerAtAllocation]

@[simp] theorem State.freezeView_keeps (s : State) :
    s.freezeView.1.inputs = s.inputs ∧ s.freezeView.1.line = s.line ∧
    s.freezeView.1.control = s.control ∧ s.freezeView.1.peers = s.peers ∧ s.freezeView.1.plan = s.plan ∧
    s.freezeView.1.window = s.window ∧ s.freezeView.1.setpoint = s.setpoint ∧
    s.freezeView.1.link = s.link ∧ s.freezeView.1.notices = s.notices ∧ s.freezeView.1.now = s.now ∧
    s.freezeView.1.freeIndex = s.freeIndex ∧ s.freezeView.1.pending = s.pending := by
  unfold State.freezeView
  try dsimp only
  repeat' split
  all_goals simp

@[simp] theorem State.joinIfDue_keeps (s : State) :
    s.joinIfDue.inputs = s.inputs ∧ s.joinIfDue.line = s.line ∧ s.joinIfDue.timer = s.timer ∧
    s.joinIfDue.peers = s.peers ∧ s.joinIfDue.plan = s.plan ∧ s.joinIfDue.window = s.window ∧
    s.joinIfDue.readiness = s.readiness ∧ s.joinIfDue.grant = s.grant ∧
    s.joinIfDue.setpoint = s.setpoint ∧ s.joinIfDue.notices = s.notices ∧ s.joinIfDue.now = s.now ∧
    s.joinIfDue.freeIndex = s.freeIndex ∧ s.joinIfDue.pending = s.pending := by
  unfold State.joinIfDue
  try dsimp only
  repeat' split
  all_goals simp

@[simp] theorem State.allocate_keeps (o : Arrival) (s : State) :
    (s.allocate o).inputs = s.inputs ∧ (s.allocate o).plan = s.plan ∧ (s.allocate o).now = s.now ∧
    (s.allocate o).freeIndex = s.freeIndex ∧ (s.allocate o).pending = s.pending := by
  simp [State.allocate]

@[simp] theorem State.settleFloorHold_keeps (v : RoundView) (s : State) :
    (s.settleFloorHold v).inputs = s.inputs ∧ (s.settleFloorHold v).line = s.line ∧
    (s.settleFloorHold v).timer = s.timer ∧ (s.settleFloorHold v).control = s.control ∧
    (s.settleFloorHold v).peers = s.peers ∧ (s.settleFloorHold v).plan = s.plan ∧
    (s.settleFloorHold v).window = s.window ∧ (s.settleFloorHold v).grant = s.grant ∧
    (s.settleFloorHold v).setpoint = s.setpoint ∧ (s.settleFloorHold v).link = s.link ∧
    (s.settleFloorHold v).notices = s.notices ∧ (s.settleFloorHold v).now = s.now ∧
    (s.settleFloorHold v).freeIndex = s.freeIndex ∧ (s.settleFloorHold v).pending = s.pending := by
  unfold State.settleFloorHold
  try dsimp only
  repeat' split
  all_goals simp

@[simp] theorem State.completeRun_keeps (v : RoundView) (s : State) :
    (s.completeRun v).inputs = s.inputs ∧ (s.completeRun v).line = s.line ∧
    (s.completeRun v).control = s.control ∧ (s.completeRun v).peers = s.peers ∧
    (s.completeRun v).plan = s.plan ∧ (s.completeRun v).window = s.window ∧
    (s.completeRun v).link = s.link ∧ (s.completeRun v).now = s.now ∧
    (s.completeRun v).freeIndex = s.freeIndex ∧ (s.completeRun v).pending = s.pending := by
  unfold State.completeRun
  try dsimp only
  repeat' split
  all_goals simp

end Sys2Proof.Machine
end

