-- ==== Sys2Proof/Laws/Ops.lean ====
section
/-! SUPPORT. What the shared operations answer: one lemma each, which later proofs cite instead of unfolding. -/

namespace Sys2Proof.Machine

/-! ### Service, time and IRQ -/

theorem State.running_of_inputs {s t : State} (h : t.inputs = s.inputs) : t.running = s.running := by
  unfold State.running; rw [h]

@[simp] theorem State.running_advance (dt : Nat) (s : State) : (s.advance dt).running = s.running :=
  State.running_of_inputs (by simp)

theorem State.advance_now (dt : Nat) (s : State) : (s.advance dt).now = s.now + dt := by
  unfold State.advance; split <;> rfl

theorem State.advance_running (dt : Nat) {s : State} (h : s.running = true) :
    s.advance dt =
      { s with
        now := s.now + dt
        window := { s.window with clock := (s.window.clock + dt) % Config.day }
        readiness := s.readiness.aged dt s.setpoint.applied } := by
  unfold State.advance; rw [if_pos h]

theorem State.advance_stopped (dt : Nat) {s : State} (h : s.running = false) :
    s.advance dt = { s with now := s.now + dt } := by
  unfold State.advance; rw [if_neg (by simp [h])]

theorem State.settle_running {s : State} (h : s.running = true) :
    s.settle = { s with link := { s.link with irq := s.link.done || !s.notices.isEmpty } } := by
  simp [State.settle, State.irqLevel, h]

theorem State.settle_stopped {s : State} (h : s.running = false) :
    s.settle = { s with link := { s.link with irq := false } } := by
  simp [State.settle, State.irqLevel, h]

/-- An event at a working part takes place, and IRQ follows. -/
theorem happens_running {dt : Nat} {f : State → State} {s : State} (h : s.running = true) :
    happens dt f s = .next (f (s.advance dt)).settle := by
  simp [happens, State.whenRunning, h]

/-- An event at a part out of service does not take place. -/
theorem happens_stopped {dt : Nat} {f : State → State} {s : State} (h : s.running = false) :
    happens dt f s = .next (s.advance dt).settle := by
  simp [happens, State.whenRunning, h]

/-- Each command answers a next state, in which IRQ follows its conditions. -/
theorem exec_answers (c : Instr) (s : State) : ∃ t : State, exec c s = .next t.settle := by
  cases c <;> exact ⟨_, rfl⟩

/-- Time moves the clock of the window controller and nothing else of it. -/
@[simp] theorem State.advance_window (dt : Nat) (s : State) :
    (s.advance dt).window.current = s.window.current ∧ (s.advance dt).window.previous = s.window.previous ∧
    (s.advance dt).window.own = s.window.own ∧ (s.advance dt).window.adopted = s.window.adopted := by
  unfold State.advance; split <;> and_intros <;> rfl

/-- Time moves the held reading and nothing else of the Readiness Unit. -/
@[simp] theorem State.advance_readiness (dt : Nat) (s : State) :
    (s.advance dt).readiness.profile = s.readiness.profile ∧
    (s.advance dt).readiness.lapseReported = s.readiness.lapseReported ∧
    (s.advance dt).readiness.estimate = s.readiness.estimate ∧
    (s.advance dt).readiness.floor = s.readiness.floor ∧
    (s.advance dt).readiness.offerEnergy = s.readiness.offerEnergy ∧
    (s.advance dt).readiness.offerPower = s.readiness.offerPower ∧
    (s.advance dt).readiness.floorHold = s.readiness.floorHold ∧
    (s.advance dt).readiness.holdAfterView = s.readiness.holdAfterView ∧
    (s.advance dt).readiness.deviationCount = s.readiness.deviationCount ∧
    (s.advance dt).readiness.deviationFlag = s.readiness.deviationFlag := by
  unfold State.advance; split <;> and_intros <;> rfl

/-- Time leaves the announced figure as it stands: a reading's measured export does not age. -/
@[simp] theorem announcedFor_advance (dt a : Nat) (s : State) :
    announcedFor (s.advance dt).readiness a = announcedFor s.readiness a := by
  unfold State.advance; split
  · unfold announcedFor ReadinessUnit.aged; cases s.readiness.reading <;> rfl
  · rfl

/-! ### Figures -/

/-- A computation rests on profile, reading, causes and configuration alone, so it can be made twice. -/
@[simp] theorem ReadinessUnit.computed_twice (r : ReadinessUnit) (c c' : HoldCauses)
    (cfg : Option Configuration) : (r.computed c' cfg).computed c cfg = r.computed c cfg := rfl

/-- The announced figure does not rest on the computed ones. -/
@[simp] theorem announcedFor_computed (r : ReadinessUnit) (c : HoldCauses) (cfg : Option Configuration)
    (a : Nat) : announcedFor (r.computed c cfg) a = announcedFor r a := rfl

/-- A computation touches the four figures alone. -/
@[simp] theorem ReadinessUnit.computed_keeps (r : ReadinessUnit) (c : HoldCauses) (cfg : Option Configuration) :
    (r.computed c cfg).profile = r.profile ∧ (r.computed c cfg).reading = r.reading ∧
    (r.computed c cfg).lapseReported = r.lapseReported ∧ (r.computed c cfg).floorHold = r.floorHold ∧
    (r.computed c cfg).holdAfterView = r.holdAfterView ∧
    (r.computed c cfg).deviationCount = r.deviationCount ∧
    (r.computed c cfg).deviationFlag = r.deviationFlag := by and_intros <;> rfl

/-- A change of causes and a computation after it: the causes as given, the figures computed with them. -/
theorem State.setCauses_computeOffer (c : HoldCauses) (s : State) :
    (s.setCauses c).computeOffer =
      { s with
        control := (s.setCauses c).control
        readiness := s.readiness.computed c s.control.configuration } := by
  unfold State.setCauses
  split
  · rename_i h; subst h; rfl
  · rfl

/-- The causes are the ones set, and only the state follows them. -/
@[simp] theorem State.setCauses_control (c : HoldCauses) (s : State) :
    (s.setCauses c).control.causes = c ∧ (s.setCauses c).control.number = s.control.number ∧
    (s.setCauses c).control.signalStrap = s.control.signalStrap ∧
    (s.setCauses c).control.configuration = s.control.configuration ∧
    (s.setCauses c).control.peerHeard = s.control.peerHeard ∧
    (s.setCauses c).control.isolated = s.control.isolated ∧
    (s.setCauses c).control.leaveAttempts = s.control.leaveAttempts ∧
    (s.setCauses c).control.withdrawalPending = s.control.withdrawalPending ∧
    (s.setCauses c).control.announcementBuilt = s.control.announcementBuilt := by
  unfold State.setCauses
  split
  · rename_i h; subst h; and_intros <;> rfl
  · and_intros <;> rfl

/-- Station Control after a change of causes, whole (R31). -/
theorem State.setCauses_control_eq (c : HoldCauses) (s : State) :
    (s.setCauses c).control =
      { s.control with
        causes := c
        state := if c = s.control.causes then s.control.state else followCauses s.control.state c } := by
  unfold State.setCauses
  split
  · rename_i h; subst h; rfl
  · rfl

/-- The readiness figures after a change of causes, whole (R103). -/
theorem State.setCauses_readiness_eq (c : HoldCauses) (s : State) :
    (s.setCauses c).readiness =
      if c = s.control.causes then s.readiness else s.readiness.computed c s.control.configuration := by
  unfold State.setCauses; split <;> rfl

/-- The floor-reached test, whole (R108). -/
theorem State.floorTest_eq (s : State) :
    s.floorTest =
      if s.floorReached then
        ({ s.zeroExport with
            readiness := { s.readiness with floorHold := true, holdAfterView := true } }).notice s.floorNotice
      else s := by
  unfold State.floorTest State.holdFloor
  split <;> rfl

/-! ### Notices -/

/-- A list of notices moves the queue alone. -/
theorem State.noticeAll_eq (ns : List Notice) (s : State) :
    s.noticeAll ns = { s with notices := (s.noticeAll ns).notices } := by
  have h := State.noticeAll_keeps ns s
  generalize s.noticeAll ns = t at h ⊢
  cases t; cases s; simp_all

theorem State.notice_eq (n : Notice) (s : State) :
    s.notice n = { s with notices := (s.notice n).notices } := State.noticeAll_eq [n] s

/-- Which kinds are enabled rests on the configuration alone. -/
theorem State.enabled_eq (s : State) :
    s.enabled = fun k => match s.control.configuration with | some c => c.enables k | none => false := rfl

/-- Which kinds are enabled does not move with the queue. -/
@[simp] theorem State.enabled_notice (n : Notice) (s : State) (k : NoticeKind) :
    (s.notice n).enabled k = s.enabled k := by simp [State.enabled]

/-- A list of notices is folded in at the round count, kinds not enabled dropped (R173, R174). -/
theorem State.noticeAll_notices (ns : List Notice) (s : State) :
    (s.noticeAll ns).notices = folded s.enabled s.timer.roundCount ns s.notices := by
  induction ns generalizing s with
  | nil => rfl
  | cons n ns ih =>
    have e : s.noticeAll (n :: ns) = (s.notice n).noticeAll ns := rfl
    have en : (s.notice n).enabled = s.enabled := by funext k; simp
    rw [e, ih, en]
    simp only [State.notice_keeps]
    unfold folded State.notice
    simp only [List.foldl_cons]
    split <;> rfl

theorem State.notice_notices (n : Notice) (s : State) :
    (s.notice n).notices = folded s.enabled s.timer.roundCount [n] s.notices := State.noticeAll_notices [n] s

theorem folded_append (en : NoticeKind → Bool) (k : Nat) (a b : List Notice) (q : List NoticeEntry) :
    folded en k (a ++ b) q = folded en k b (folded en k a q) := by simp [folded]

/-- The deviation test, whole (R111, R148). -/
theorem State.deviationTest_eq (measured : Nat) (s : State) :
    s.deviationTest measured =
      let d :=
        deviationStep s.readiness.deviationCount s.readiness.deviationFlag
          (deviates measured s.setpoint.applied)
      let r := { s.readiness with deviationCount := d.1, deviationFlag := d.2 }
      { s with
        readiness := r
        setpoint := { s.setpoint with announced := announcedFor r s.setpoint.applied }
        notices :=
          folded s.enabled s.timer.roundCount
            (if d.2 && !s.readiness.deviationFlag then [numbered .stageDeviation measured] else [])
            s.notices } := by
  simp only [State.deviationTest]
  split
  · rw [State.notice_eq, State.notice_notices]; rfl
  · rfl

/-- What a reading does after it is stored and before the floor test: causes, deviation test, computation (R101). -/
theorem State.deviationTest_computeOffer (c : HoldCauses) (pm : Nat) (S : State) :
    ((S.setCauses c).deviationTest pm).computeOffer =
      let d := deviationStep S.readiness.deviationCount S.readiness.deviationFlag (deviates pm S.setpoint.applied)
      let r := { S.readiness with deviationCount := d.1, deviationFlag := d.2 }
      { S with
        control := (S.setCauses c).control
        readiness := r.computed c S.control.configuration
        setpoint := { S.setpoint with announced := announcedFor r S.setpoint.applied }
        notices := folded S.enabled S.timer.roundCount
            (if d.2 && !S.readiness.deviationFlag then [numbered .stageDeviation pm] else []) S.notices } := by
  rw [State.deviationTest_eq]
  unfold State.setCauses
  split
  · rename_i h; subst h; rfl
  · rfl

/-! ### The STAGE period -/

/-- The start of a STAGE period touches the duty in effect and the period's start alone, and the duty in effect is then
the commanded one or stays as it was (R145, R146). -/
theorem State.periodStarts_eq (s : State) :
    (s.periodStarts = s ∨
      ∃ p, s.periodStarts =
        { s with setpoint := { s.setpoint with lineDuty := s.setpoint.duty, periodStart := some p } }) := by
  unfold State.periodStarts
  split
  · exact .inr ⟨_, rfl⟩
  · split
    · exact .inr ⟨_, rfl⟩
    · exact .inl rfl

/-! ### The announcement of a withdrawal -/

/-- Only a frame that carries WITHDRAWN and was built after the AVAIL in flight was taken completes it (R37, R164). -/
theorem State.withdrawalSent_waits {f : Frame} {s : State}
    (h : ¬(s.control.withdrawalPending = true ∧ s.control.announcementBuilt = true ∧ f.core.causes.withdrawn = true)) :
    s.withdrawalSent f = s := by
  unfold State.withdrawalSent
  exact if_neg (by simpa [and_assoc] using h)

/-! ### Requests -/

/-- A pass of the checks is of the kind the byte names. -/
theorem checkRequest_pass {kind len : Byte} {fs : List Byte} {st : StationState} {k : RequestKind}
    (h : checkRequest kind len fs st = .pass k) :
    kindOfByte kind = some k ∧ len.toNat = kindLength k ∧ fs.length = len.toNat ∧
      kindAllowed k st = true ∧ firstBad (fieldChecks k fs) = none := by
  unfold checkRequest at h
  split at h
  · cases h
  · rename_i k' hk
    split at h
    · cases h
    · rename_i hl
      split at h
      · cases h
      · rename_i ha
        split at h
        · cases h
        · rename_i hb
          cases h
          exact ⟨hk, (Classical.not_not.mp hl).1, (Classical.not_not.mp hl).2, by simpa using ha, hb⟩

/-- The selector 57h is a WRITE REQUEST (R153). -/
@[simp] theorem State.transact_write (straps : Straps) (bytes : List Byte) (s : State) :
    s.transact straps 0x57#8 bytes = s.writeTransaction straps bytes := rfl

/-- The selector 52h is a READ RESPONSE of as many bytes (R153). -/
@[simp] theorem State.transact_read (straps : Straps) (n : Nat) (s : State) :
    s.transact straps 0x52#8 (unread n) = s.readBack n :=
  congrArg (fun k => s.readBack k) List.length_replicate

/-- The selector 46h is a READ FLAGS of as many bytes (R153). -/
@[simp] theorem State.transact_flags (straps : Straps) (n : Nat) (s : State) :
    s.transact straps 0x46#8 (unread n) = s.readFlags n :=
  congrArg (fun k => s.readFlags k) List.length_replicate

/-- A selector that names no transaction: 00h throughout, and no other item changes (R153). -/
theorem State.transact_ignored {selector : Byte} (h : transactionOf selector = none) (straps : Straps) (n : Nat)
    (s : State) : s.transact straps selector (unread n) = s.sends (List.replicate n 0x00) := by
  unfold State.transact; rw [h]; exact congrArg (fun k => s.sends (List.replicate k 0x00)) List.length_replicate

/-- A write at a part that accepts one, whose record passes the checks, is handed on. -/
theorem execWriteRequest_pass {dt : Nat} {straps : Straps} {kind len : Byte} {fs : List Byte} {s : State}
    {k : RequestKind} (hr : s.running = true) (hb : s.link.busy = false)
    (h : checkRequest kind len fs s.control.state = .pass k) :
    execWriteRequest dt straps (kind :: len :: fs) s =
      .next (State.settle
        ((((s.advance dt).sendsOpen [] (fs.length + 2)).openRequest kind len fs).handle k straps fs)) := by
  simp [execWriteRequest, happens_running hr, State.writeTransaction, State.takeWrite, State.sendsOpen,
    State.sends, hb, h]

end Sys2Proof.Machine
end

