-- ==== Sys2Proof/Laws/Line.lean ====
section
/-! SUPPORT. The depot line: what a receiver gathers of characters sent (R1), how long a frame is (R4), one bit of
the CRC (R5), when a transmission is received (R2), and the order of an allocation point's notices (R173). -/

namespace Sys2Proof

/-! ### Characters as levels -/

theorem charLevels_eq (c : Byte) :
    charLevels c =
      [.dominant, bitLevel (c.getLsbD 0), bitLevel (c.getLsbD 1), bitLevel (c.getLsbD 2), bitLevel (c.getLsbD 3),
        bitLevel (c.getLsbD 4), bitLevel (c.getLsbD 5), bitLevel (c.getLsbD 6), bitLevel (c.getLsbD 7),
        .recessive] := rfl

/-- The data bits of a character make that character. -/
theorem byteOfLevels_bits : ∀ c : Byte,
    byteOfLevels
      [bitLevel (c.getLsbD 0), bitLevel (c.getLsbD 1), bitLevel (c.getLsbD 2), bitLevel (c.getLsbD 3),
        bitLevel (c.getLsbD 4), bitLevel (c.getLsbD 5), bitLevel (c.getLsbD 6), bitLevel (c.getLsbD 7)] = c := by
  decide +kernel

/-- A start bit and eight data bits bring the receiver before the stop bit. -/
theorem foldl_charBits (c : Byte) (n : Nat) (cs : List Byte) (fault ended : Bool) :
    ((charLevels c).take 9).foldl Gathered.sample ⟨.between n, cs, fault, ended⟩ =
      ⟨.inChar
        [bitLevel (c.getLsbD 0), bitLevel (c.getLsbD 1), bitLevel (c.getLsbD 2), bitLevel (c.getLsbD 3),
          bitLevel (c.getLsbD 4), bitLevel (c.getLsbD 5), bitLevel (c.getLsbD 6), bitLevel (c.getLsbD 7)],
        cs, fault, ended⟩ := rfl

/-- The level after eight data bits is the stop bit of their character. -/
theorem Gathered.sample_stop (c : Byte) (l : Level) (cs : List Byte) (fault ended : Bool) :
    Gathered.sample
      ⟨.inChar
        [bitLevel (c.getLsbD 0), bitLevel (c.getLsbD 1), bitLevel (c.getLsbD 2), bitLevel (c.getLsbD 3),
          bitLevel (c.getLsbD 4), bitLevel (c.getLsbD 5), bitLevel (c.getLsbD 6), bitLevel (c.getLsbD 7)],
        cs, fault, ended⟩ l =
      match l with
      | .recessive => ⟨.between 0, cs ++ [c], fault, ended⟩
      | .dominant => ⟨.held, cs ++ [c], true, ended⟩ := by
  simp only [Gathered.sample, List.length_cons, List.length_nil]
  rw [if_neg (by decide)]
  cases l <;> simp only [Gathered.stopBit, byteOfLevels_bits]

/-- One character sent is one character gathered. -/
theorem foldl_charLevels (c : Byte) (n : Nat) (cs : List Byte) (fault ended : Bool) :
    (charLevels c).foldl Gathered.sample ⟨.between n, cs, fault, ended⟩ =
      ⟨.between 0, cs ++ [c], fault, ended⟩ := by
  have h : charLevels c = (charLevels c).take 9 ++ [.recessive] := rfl
  rw [h, List.foldl_append, foldl_charBits, List.foldl_cons, List.foldl_nil, Gathered.sample_stop]

theorem foldl_flatMap_charLevels (cs : List Byte) : ∀ (got : List Byte) (fault ended : Bool),
    (cs.flatMap charLevels).foldl Gathered.sample ⟨.between 0, got, fault, ended⟩ =
      ⟨.between 0, got ++ cs, fault, ended⟩ := by
  induction cs with
  | nil => simp
  | cons c cs ih =>
    intro got fault ended
    simp [List.flatMap_cons, List.foldl_append, foldl_charLevels, ih]

/-- Characters sent back to back are gathered whole, without a fault. -/
theorem transmission_gathered (cs : List Byte) :
    (transmission cs).gathered = { Gathered.start with chars := cs } := by
  simp [Reception.gathered, transmission, Gathered.start, foldl_flatMap_charLevels]

theorem Gathered.stopBit_grows (g : Gathered) (bits : List Level) (l : Level) :
    (g.fault = true → (g.stopBit bits l).fault = true) ∧ ∃ more, (g.stopBit bits l).chars = g.chars ++ more := by
  cases l <;> simp [Gathered.stopBit]

/-- A level takes back neither a fault nor a character. -/
theorem Gathered.sample_grows (g : Gathered) (l : Level) :
    (g.fault = true → (g.sample l).fault = true) ∧ ∃ more, (g.sample l).chars = g.chars ++ more := by
  unfold Gathered.sample
  split
  case h_5 =>
    split
    · exact ⟨id, [], by simp⟩
    · exact g.stopBit_grows _ _
  all_goals exact ⟨id, [], by simp⟩

theorem Gathered.foldl_grows (ls : List Level) : ∀ g : Gathered,
    (g.fault = true → (ls.foldl Gathered.sample g).fault = true) ∧
    ∃ more, (ls.foldl Gathered.sample g).chars = g.chars ++ more := by
  induction ls with
  | nil => exact fun g => ⟨id, [], by simp⟩
  | cons l ls ih =>
    intro g
    obtain ⟨h, m, hm⟩ := g.sample_grows l
    obtain ⟨h', m', hm'⟩ := ih (g.sample l)
    exact ⟨fun hg => h' (h hg), m ++ m', by simp [hm', hm]⟩

end Sys2Proof

namespace Sys2Proof.Machine

/-! ### Frames -/

/-- R4's length is the number of characters sent. -/
theorem Frame.length_chars (f : Frame) : f.chars.length = f.charCount := by
  obtain ⟨st, core, sg, rd⟩ := f
  cases sg <;> cases rd <;> rfl

/-- Ten bit times for each character, at 19,200 bit/s (R1). -/
theorem Frame.duration_eq (f : Frame) : f.duration = (6250 * f.chars.length + 6) / 12 := by
  rw [Frame.length_chars]
  show (625 * (10 * f.charCount) + 6) / 12 = _
  rw [← Nat.mul_assoc]

/-- A shift of the register with a bit of the character in its place: the generator comes in where the two
leading bits differ (R5). -/
theorem crcShift_xor (c d : Word16) :
    crcShift (c ^^^ d) = (if c.msb = d.msb then c <<< 1 else (c <<< 1) ^^^ 0x1021#16) ^^^ (d <<< 1) := by
  unfold crcShift
  rw [BitVec.msb_xor]
  cases c.msb <;> cases d.msb <;>
    simp [BitVec.shiftLeft_xor_distrib, BitVec.xor_assoc, BitVec.xor_comm (d <<< 1)]

theorem crc16_append (cs : List Byte) (c : Byte) : crc16 (cs ++ [c]) = crcStep (crc16 cs) c := by
  simp [crc16]

/-! ### The transmitter -/

theorem LineInterface.stopped_silent {l : LineInterface} (h : l.transmitter = .silent) (now : Instant) :
    l.stopped now = l := by
  obtain ⟨a, b, c, d, e, f⟩ := l
  cases h; rfl

theorem LineInterface.stopped_waiting {l : LineInterface} {opening : Instant} {f : Frame}
    (h : l.transmitter = .waiting opening f) (now : Instant) :
    l.stopped now = { l with transmitter := .silent } := by
  simp [LineInterface.stopped, Transmitter.span, h]

theorem LineInterface.stopped_sending {l : LineInterface} {start : Instant} {f : Frame}
    (h : l.transmitter = .sending start f) (now : Instant) :
    l.stopped now = { l with transmitter := .silent, ownUntil := some (min now (after start f.duration)) } := by
  simp [LineInterface.stopped, Transmitter.span, h]

theorem LineInterface.stopped_mark {l : LineInterface} {start : Instant} (h : l.transmitter = .mark start)
    (now : Instant) :
    l.stopped now = { l with transmitter := .silent, ownUntil := some (min now (start + 1563)) } := by
  simp [LineInterface.stopped, Transmitter.span, h]; rfl

/-- What stopping leaves: the receiver and the counts as they were. -/
@[simp] theorem LineInterface.stopped_keeps (l : LineInterface) (now : Instant) :
    (l.stopped now).receiver = l.receiver ∧ (l.stopped now).corrupt = l.corrupt ∧
    (l.stopped now).lastCorrupt = l.lastCorrupt ∧ (l.stopped now).readbackFailures = l.readbackFailures ∧
    (l.stopped now).transmitter = .silent := by
  unfold LineInterface.stopped; split <;> and_intros <;> rfl

/-- A transmission is received: the receiver on by its start, the own transmission over before it or starting at or
after its end, and no own line activity left when it began (R2, R11, R19). -/
theorem LineInterface.receives_iff (l : LineInterface) (start now : Instant) :
    l.receives start now = true ↔
      (∃ since, l.receiver = .on since ∧ since ≤ start) ∧
      (∀ a b, l.transmitter.span = some (a, b) → now ≤ a ∨ b < start) ∧
      ∀ ended, l.ownUntil = some ended → ended < start := by
  unfold LineInterface.receives
  cases l.receiver <;> cases l.transmitter.span with
  | none => cases l.ownUntil <;> simp
  | some p => obtain ⟨a, b⟩ := p; cases l.ownUntil <;> simp [and_assoc]

/-! ### Notices of an allocation point -/

/-- Putting notices into a list keeps them all. -/
theorem putAt_perm (k : Nat) (ns base : List Notice) : (putAt k ns base).Perm (base ++ ns) := by
  unfold putAt
  have h : (base.take k ++ (ns ++ base.drop k)).Perm (base.take k ++ (base.drop k ++ ns)) :=
    List.Perm.append_left _ List.perm_append_comm
  simpa [← List.append_assoc] using h

/-- It keeps the order of either list. -/
theorem putAt_sublist (k : Nat) (ns base : List Notice) :
    base.Sublist (putAt k ns base) ∧ ns.Sublist (putAt k ns base) := by
  unfold putAt
  constructor
  · have h : (base.take k ++ base.drop k).Sublist (base.take k ++ ns ++ base.drop k) :=
      List.Sublist.append (List.sublist_append_left _ _) (List.Sublist.refl _)
    simpa using h
  · exact (List.sublist_append_right _ _).trans (List.sublist_append_left _ _)

end Sys2Proof.Machine
end

