-- ==== Sys2Proof/Laws/Walks.lean ====
section
/-! SUPPORT. What the walks over the peer entries and over the rider plan answer, entry by entry. -/

namespace Sys2Proof.Machine

/-! ### The peer entries -/

/-- Ageing keeps the number of entries. -/
theorem ageEntries_length (own : Option Nat) : ∀ (k : Nat) (es : List PeerEntry), (ageEntries own k es).length = es.length
  | _, [] => rfl
  | k, e :: es => by simp [ageEntries, ageEntries_length own (k + 1) es]

/-- Ageing ages each peer entry and leaves the own one. -/
theorem ageEntries_get (own : Option Nat) : ∀ (k : Nat) (es : List PeerEntry) (i : Nat), i < es.length →
    (ageEntries own k es).getD i .reset = if isPeer own (k + i) then (es.getD i .reset).aged else es.getD i .reset
  | _, [], i, h => by simp at h
  | k, e :: es, 0, h => by simp [ageEntries]
  | k, e :: es, i + 1, h => by
    have := ageEntries_get own (k + 1) es i (by simpa using h)
    simp only [ageEntries, List.getD_cons_succ, this]
    rw [show k + 1 + i = k + (i + 1) by omega]

/-- Clearing the frame-since flags clears each entry's. -/
theorem clearFlags_get (es : List PeerEntry) (i : Nat) :
    (clearFlags es).getD i .reset = { es.getD i .reset with frameSince := false } := by
  unfold clearFlags
  simp only [List.getD_eq_getElem?_getD, List.getElem?_map]
  cases es[i]? <;> rfl

/-- A station is in the set exactly where its entry has the property. -/
theorem stationsWhere_get (p : Nat → PeerEntry → Bool) : ∀ (k : Nat) (es : List PeerEntry) (j : Nat), j < 32 →
    (stationsWhere p k es).getLsbD j = decide (k ≤ j ∧ j < k + es.length ∧ p j (es.getD (j - k) .reset) = true)
  | _, [], j, h => by simp [stationsWhere]; omega
  | k, e :: es, j, h => by
    have ih := stationsWhere_get p (k + 1) es j h
    simp only [stationsWhere, BitVec.getLsbD_or, ih]
    have hb : (stationBit k).getLsbD j = decide (k = j) := by
      simp only [stationBit, BitVec.getLsbD_ofNat, h, decide_true, Bool.true_and, Nat.testBit_two_pow]
    by_cases hkj : k = j
    · subst hkj
      cases hp : p k e <;> simp only [hp, hb, Bool.false_eq_true, if_false, if_true] <;> simp [hp]
      all_goals (intro h1; omega)
    · have : (if p k e = true then stationBit k else 0).getLsbD j = false := by
        split <;> simp [hb, hkj]
      rw [this]
      simp only [Bool.false_or, decide_eq_decide, List.length_cons]
      by_cases hlt : k < j
      · have e1 : j - k = (j - (k + 1)) + 1 := by omega
        rw [e1, List.getD_cons_succ]
        constructor
        · rintro ⟨h1, h2, h3⟩; exact ⟨by omega, by omega, h3⟩
        · rintro ⟨h1, h2, h3⟩; exact ⟨by omega, by omega, h3⟩
      · constructor
        · rintro ⟨h1, h2, h3⟩; omega
        · rintro ⟨h1, h2, h3⟩; omega

/-- The count is the number of entries with the property. -/
theorem countWhere_eq (p : Nat → PeerEntry → Bool) : ∀ (k : Nat) (es : List PeerEntry),
    countWhere p k es = ((List.range es.length).filter fun i => p (k + i) (es.getD i .reset)).length
  | _, [] => rfl
  | k, e :: es => by
    rw [countWhere, countWhere_eq p (k + 1) es, List.length_cons, List.range_succ_eq_map, List.filter_cons]
    have : (List.filter (fun i => p (k + i) ((e :: es).getD i .reset)) (List.map Nat.succ (List.range es.length))).length =
      ((List.range es.length).filter fun i => p (k + 1 + i) (es.getD i .reset)).length := by
      rw [List.filter_map, List.length_map]
      congr 1; apply List.filter_congr; intro i _
      simp only [Function.comp, List.getD_cons_succ, Nat.succ_eq_add_one]
      rw [show k + (i + 1) = k + 1 + i by omega]
    simp only [Nat.add_zero, List.getD_cons_zero]
    split
    · rw [List.length_cons, this]; omega
    · rw [this]; omega

/-- Of 32 entries some has the property exactly where the count is above 0. -/
theorem countWhere_pos (p : Nat → PeerEntry → Bool) (es : List PeerEntry) (h : es.length = 32) :
    (0 < countWhere p 0 es) ↔ ∃ k < 32, p k (es.getD k .reset) = true := by
  rw [countWhere_eq, h, List.length_pos_iff_exists_mem]
  simp [List.mem_filter]

/-- The station found is the lowest whose entry has the property. -/
theorem firstWhere_some (p : Nat → PeerEntry → Bool) : ∀ (k : Nat) (es : List PeerEntry) (j : Nat),
    firstWhere p k es = some j → k ≤ j ∧ j < k + es.length ∧ p j (es.getD (j - k) .reset) = true ∧
      ∀ i, k ≤ i → i < j → p i (es.getD (i - k) .reset) = false
  | _, [], j, h => by simp [firstWhere] at h
  | k, e :: es, j, h => by
    unfold firstWhere at h
    split at h
    · rename_i hp; cases h; simp [hp]; intro i h1 h2; omega
    · rename_i hp
      obtain ⟨h1, h2, h3, h4⟩ := firstWhere_some p (k + 1) es j h
      have e1 : ∀ i, k + 1 ≤ i → (e :: es).getD (i - k) .reset = es.getD (i - (k + 1)) .reset := by
        intro i hi; rw [show i - k = (i - (k + 1)) + 1 by omega, List.getD_cons_succ]
      refine ⟨by omega, by simp; omega, by rw [e1 j h1]; exact h3, fun i hi hj => ?_⟩
      by_cases hik : i = k
      · subst hik; simpa using hp
      · rw [e1 i (by omega)]; exact h4 i (by omega) hj

/-- Where none is found, no entry has the property. -/
theorem firstWhere_none (p : Nat → PeerEntry → Bool) : ∀ (k : Nat) (es : List PeerEntry),
    firstWhere p k es = none → ∀ i, k ≤ i → i < k + es.length → p i (es.getD (i - k) .reset) = false
  | _, [], h => by simp; intro i _ h; omega
  | k, e :: es, h => by
    unfold firstWhere at h
    split at h
    · cases h
    · rename_i hp
      have := firstWhere_none p (k + 1) es h
      intro i hi hj
      by_cases hik : i = k
      · subst hik; simpa using hp
      · rw [show i - k = (i - (k + 1)) + 1 by omega, List.getD_cons_succ]; exact this i (by omega) (by simp at hj; omega)

/-- One notice for each entry whose presence changed, in ascending station number. -/
theorem presenceNotices_eq : ∀ (k : Nat) (a b : List PeerEntry), a.length = b.length →
    presenceNotices k a b = (List.range a.length).flatMap (fun i =>
      if (a.getD i .reset).presence.sameKind (b.getD i .reset).presence then []
      else [peerNotice (k + i) (b.getD i .reset).presence])
  | _, [], [], h => rfl
  | _, [], _ :: _, h => by simp at h
  | _, _ :: _, [], h => by simp at h
  | k, x :: a, y :: b, h => by
    rw [presenceNotices, presenceNotices_eq (k + 1) a b (by simpa using h), List.length_cons, List.range_succ_eq_map, List.flatMap_cons, List.flatMap_map]
    simp only [List.getD_cons_zero, Nat.add_zero, List.getD_cons_succ, Nat.succ_eq_add_one]
    congr 1
    congr 1; funext i; rw [show k + (i + 1) = k + 1 + i by omega]

/-- One record for each FRESH or STALE peer, in ascending station number. -/
theorem peerRecords_eq (own : Option Nat) (rec : StationSet) : ∀ (k : Nat) (es : List PeerEntry),
    peerRecords own rec k es = (List.range es.length).filterMap (fun i =>
      let e := es.getD i .reset
      if own ≠ some (k + i) ∧ e.presence.isPresent = true then
        e.core.map fun core => { number := k + i, received := rec.getLsbD (k + i), core := core, departure := e.profile.map fun p => p.departure : PeerRecord }
      else none)
  | _, [] => rfl
  | k, e :: es => by
    rw [peerRecords, peerRecords_eq own rec (k + 1) es, List.length_cons, List.range_succ_eq_map, List.filterMap_cons, List.filterMap_map]
    simp only [List.getD_cons_zero, Nat.add_zero]
    have : (fun i => let e := es.getD i .reset
      if own ≠ some (k + 1 + i) ∧ e.presence.isPresent = true then
        e.core.map fun core => { number := k + 1 + i, received := rec.getLsbD (k + 1 + i), core := core, departure := e.profile.map fun p => p.departure : PeerRecord }
      else none) = ((fun i => let e := (e :: es).getD i .reset
      if own ≠ some (k + i) ∧ e.presence.isPresent = true then
        e.core.map fun core => { number := k + i, received := rec.getLsbD (k + i), core := core, departure := e.profile.map fun p => p.departure : PeerRecord }
      else none) ∘ Nat.succ) := by
      funext i; simp only [Function.comp, Nat.succ_eq_add_one, List.getD_cons_succ]; rw [show k + (i + 1) = k + 1 + i by omega]
    rw [this]
    cases e.core with
    | none => simp
    | some c =>
      by_cases h : own ≠ some k ∧ e.presence.isPresent = true
      · have h' : (decide (some k ≠ own) && e.presence.isPresent) = true := by simp [h.2]; exact fun q => h.1 q.symm
        rw [if_pos h]; simp only [h', if_true, Option.map_some]; rfl
      · have h' : (decide (some k ≠ own) && e.presence.isPresent) = false := by
          rw [Bool.eq_false_iff]; intro q; apply h; simp at q; exact ⟨fun z => q.1 z.symm, q.2⟩
        rw [if_neg h]; simp only [h', Bool.false_eq_true, if_false, List.nil_append]



/-! ### The rider plan -/

/-- The place found is the first with the property. -/
theorem firstIndex_some (p : RiderEntry → Bool) : ∀ (l : List RiderEntry) (i : Nat), firstIndex p l = some i → ∃ e, l[i]? = some e ∧ p e = true ∧ ∀ j < i, ∀ e', l[j]? = some e' → p e' = false
  | [], i, h => by simp [firstIndex] at h
  | e :: es, i, h => by
    unfold firstIndex at h
    split at h
    · rename_i hp; cases h; exact ⟨e, rfl, hp, by simp⟩
    · rename_i hp
      simp only [Option.map_eq_some_iff] at h
      obtain ⟨j, hj, rfl⟩ := h
      obtain ⟨e', h1, h2, h3⟩ := firstIndex_some p es j hj
      refine ⟨e', by simpa using h1, h2, fun k hk e'' he => ?_⟩
      cases k with
      | zero => simp at he; subst he; simpa using hp
      | succ k => exact h3 k (by omega) e'' (by simpa using he)
/-- Where none is found, no entry of the plan has the property. -/
theorem firstIndex_none (p : RiderEntry → Bool) : ∀ (l : List RiderEntry), firstIndex p l = none → ∀ e ∈ l, p e = false
  | [], h => by simp
  | e :: es, h => by
    unfold firstIndex at h
    split at h
    · cases h
    · rename_i hp
      simp only [Option.map_eq_none_iff] at h
      have := firstIndex_none p es h
      simpa [hp] using this
/-- The marks after a selection, entry by entry. -/
theorem remark_get (x : PlanContext) : ∀ (l : List RiderEntry) (c : Option Nat), (remark x c l).length = l.length ∧ ∀ i e, l[i]? = some e → (remark x c l)[i]? = some (if c = some i then {e with owed := false} else remark.markOne x e)
  | [], c => by cases c <;> simp [remark]
  | e :: es, none => by
    obtain ⟨h1, h2⟩ := remark_get x es none
    refine ⟨by simp [remark, h1], fun i a ha => ?_⟩
    cases i with
    | zero => simp at ha; subst ha; simp [remark]
    | succ i => simpa [remark] using h2 i a (by simpa using ha)
  | e :: es, some 0 => by
    obtain ⟨h1, h2⟩ := remark_get x es none
    refine ⟨by simp [remark, h1], fun i a ha => ?_⟩
    cases i with
    | zero => simp at ha; subst ha; simp [remark]
    | succ i => simpa [remark] using h2 i a (by simpa using ha)
  | e :: es, some (k+1) => by
    obtain ⟨h1, h2⟩ := remark_get x es (some k)
    refine ⟨by simp [remark, h1], fun i a ha => ?_⟩
    cases i with
    | zero => simp at ha; subst ha; simp [remark]
    | succ i => simpa [remark] using h2 i a (by simpa using ha)


end Sys2Proof.Machine
end

