-- ==== Sys2Proof/Laws/Round.lean ====
section
/-! SUPPORT. What the steps of an allocation point, of a completion, of an entry into FAULTED and of a LEAVE answer,
each whole. -/

namespace Sys2Proof.Machine

/-- R41, whole: the peer-heard mark, the isolated condition, and its notice. -/
theorem State.judgeIsolation_control (s : State) :
    s.judgeIsolation.1.control =
      { s.control with
        peerHeard := s.control.peerHeard || s.hearsFresh
        isolated :=
          if s.control.state.joined then
            if s.control.isolated then !s.hearsFresh
            else (s.control.peerHeard || s.hearsFresh) && !s.hearsPresent
          else s.control.isolated } ∧
    s.judgeIsolation.2 =
      (if s.judgeIsolation.1.control.isolated = s.control.isolated then []
       else if s.judgeIsolation.1.control.isolated then [numbered .isolated s.peers.census]
       else [numbered .lineRestored s.peers.liveCount]) := by
  have e1 : ∀ b, ({ s with control := { s.control with peerHeard := b } } : State).hearsFresh = s.hearsFresh :=
    fun _ => rfl
  have e2 : ∀ b, ({ s with control := { s.control with peerHeard := b } } : State).hearsPresent = s.hearsPresent :=
    fun _ => rfl
  simp only [State.judgeIsolation, e1, e2]
  cases hj : s.control.state.joined <;> cases hi : s.control.isolated <;> cases hf : s.hearsFresh <;>
    cases hp : s.control.peerHeard <;> cases hq : s.hearsPresent <;> simp [hi]

/-- R103, R108 at an allocation point, whole. -/
theorem State.offerAtAllocation_eq (s : State) :
    let R := s.readiness.computed s.control.causes s.control.configuration
    let reached := decide (R.offerEnergy = 0 ∧ 0 < s.setpoint.applied)
    s.offerAtAllocation.1 =
      { s with
        readiness :=
          { R with
            floorHold := s.readiness.floorHold || reached, holdAfterView := s.readiness.holdAfterView || reached }
        setpoint := if reached then s.setpoint.at_ 0 s.control.configuration s.readiness else s.setpoint } ∧
    s.offerAtAllocation.2 = if reached then [numbered .floorReached (R.estimate.getD 0)] else [] := by
  intro R reached
  have hf : s.computeOffer.floorReached = reached := rfl
  simp only [State.offerAtAllocation, hf, State.holdFloor]
  cases h : reached
  · simp [State.computeOffer, R]; rfl
  · simp [State.zeroExport, State.setApplied, State.computeOffer, R, SetpointUnit.at_]; rfl

/-- An allocation point: the steps of the line, the Peer Table and the Window Controller leave w; isolation, offer,
view and join follow, and the notices come last (R61). -/
theorem allocate_split (order : Arrival) (m : State) :
    ∃ w : State, ∃ L1 L2 : List Notice,
      w.control = m.control ∧ w.readiness = m.readiness ∧ w.setpoint = m.setpoint ∧ w.grant = m.grant ∧
      w.link = m.link ∧ w.inputs = m.inputs ∧ w.now = m.now ∧ w.notices = m.notices ∧ w.plan = m.plan ∧
      w.freeIndex = m.freeIndex ∧ w.pending = m.pending ∧
      w.timer = { m.timer with allocationPending := false, allocations := min 2 (m.timer.allocations + 1) } ∧
      w.peers = (m.allocate order).peers ∧ w.window = (m.allocate order).window ∧
      w.peers.entries = clearFlags (ageEntries m.control.number 0 m.peers.entries) ∧
      L1 = (presenceNotices 0 m.peers.entries (ageEntries m.control.number 0 m.peers.entries) ++
        (if w.peers.authority = m.peers.authority then []
         else [{ kind := .authorityChanged, subject := none, value := .authority w.peers.authority }])) ++
        windowNotices m.window.adopted w.window.adopted ∧
      L2 = (if 4 ≤ m.line.corrupt then [numbered .lineErrors m.line.corrupt] else []) ∧
      m.allocate order =
        State.noticeAll
          (arrivalOrder order (L1 ++ w.judgeIsolation.1.offerAtAllocation.1.freezeView.2)
            w.judgeIsolation.1.offerAtAllocation.2 w.judgeIsolation.2 L2)
          w.judgeIsolation.1.offerAtAllocation.1.freezeView.1.joinIfDue := by
  let raised : State :=
    { m with
      timer := { m.timer with allocationPending := false, allocations := min 2 (m.timer.allocations + 1) } }
  refine ⟨State.fixCensus m.window.adopted raised.copyCorrupt.1.agePeers.1.adoptWindow.1, _, _,
    ?_, ?_, ?_, ?_, ?_, ?_, ?_, ?_, ?_, ?_, ?_, ?_, ?_, ?_, ?_, rfl, rfl, rfl⟩
  all_goals first | (simp [raised, State.allocate]; done) | simp [raised, State.fixCensus, State.adoptWindow, State.agePeers, State.copyCorrupt]

/-- The freeze of an allocation point, whole (R119, R128). -/
theorem freezeView_some {s : State} {c : Configuration} (h : s.control.configuration = some c) :
    let differing :=
      if previousRun s.grant.digestRound s.timer.roundCount then (s.roundView c).differing s.grant.digest else 0
    s.freezeView =
      if s.control.state.runs then
        ({ s with
           grant :=
             { s.grant with
               view := some (s.roundView c), splitSeen := decide (0 < differing), runStatus := .inFlight
               sentOffer := none }
           timer := { s.timer with outcome := .running }
           readiness := { s.readiness with holdAfterView := false } },
         if 0 < differing then [numbered .viewSplit differing] else [])
      else
        ({ s with
           grant := { s.grant with sentOffer := none }
           timer := { s.timer with outcome := .noRun } }, []) := by
  unfold State.freezeView; rw [h]; rfl

/-- R109: floor hold after a completion. -/
theorem State.settleFloorHold_eq (v : RoundView) (m : State) :
    m.settleFloorHold v =
      { m with
        readiness :=
          { m.readiness with
            floorHold :=
              m.readiness.floorHold && (m.readiness.holdAfterView || decide (v.ownOffer.power = 0)) } } := by
  unfold State.settleFloorHold
  by_cases h1 : m.readiness.holdAfterView = false <;> by_cases h2 : v.ownOffer.power = 0
  · rw [if_neg (by omega)]; simp [h2]
  · rw [if_pos ⟨h1, by omega⟩]; simp [h1, h2]
  · rw [if_neg (by simp [h1])]
    have h1 : m.readiness.holdAfterView = true := by simpa using h1
    rw [h1]; simp
  · rw [if_neg (by simp [h1])]
    have h1 : m.readiness.holdAfterView = true := by simpa using h1
    rw [h1]; simp

/-- R39: a LEAVE frame that was not SENT ends the LEAVE at its third attempt. -/
theorem State.leaveNotSent_eq (f : Frame) (s : State) :
    s.leaveNotSent f =
      if f.core.state = .leaving ∧ s.control.state = .leaving ∧ 3 ≤ s.control.leaveAttempts then
        s.leaveCompletes false
      else s := by
  simp [State.leaveNotSent, State.isLeaveFrame, and_assoc]

/-- Entry into FAULTED, whole (R29, R134). -/
theorem State.enterFaulted_enters (m : State) (hr : m.running = true) (e : Evidence) (first : Bool) :
    EntersFaulted m (m.enterFaulted e first).settle e first (m.line.frameStopped m.now) := by
  have hrun : m.inputs.powered = true ∧ m.inputs.resetLow = false := by simpa [State.running] using hr
  have hrs :
      (match m.grant.runStatus with | .inFlight => RunStatus.abandoned | r => r) =
        if m.grant.runStatus = .inFlight then .abandoned else m.grant.runStatus := by
    cases m.grant.runStatus <;> rfl
  unfold EntersFaulted
  simp only []
  cases h : m.link.request with
  | none =>
    simp only [State.enterFaulted, State.completeFaulted, h, hrs]
    rw [State.noticeAll_eq, State.noticeAll_notices]
    simp [State.settle, State.irqLevel, State.running, hrun, State.zeroExport, State.setApplied,
      SetpointUnit.at_, irqOf, State.enabled_eq, State.grantZeroed]
    first | exact ⟨hrs, h⟩ | exact hrs | exact h
  | some r =>
    by_cases hk : r.kind = 0x01#8 <;>
    · simp only [State.enterFaulted, State.completeFaulted, h, hrs, hk, if_true, if_false]
      rw [State.noticeAll_eq, State.noticeAll_notices]
      simp [State.settle, State.irqLevel, State.running, hrun, State.zeroExport, State.setApplied,
        SetpointUnit.at_, irqOf, State.enabled_eq, State.grantZeroed, hk, kindCode, PostLink.answered,
        State.complete, State.strapFields, State.number]
      exact hrs

/-- A LEAVE that completes leaves the station OFFLINE, whatever the events before it changed of what goes (R40). -/
theorem State.leaveCompletes_settled (m u : State) (hr : m.running = true) (sent : Bool)
    (h1 : u.inputs = m.inputs) (h2 : u.window = m.window) (h3 : u.notices = m.notices) (h4 : u.now = m.now)
    (h5 : u.freeIndex = m.freeIndex) (h6 : u.pending = m.pending) (h7 : u.link = m.link) :
    (u.leaveCompletes sent).settle = LeftTheLine m sent := by
  have hrun : m.inputs.powered = true ∧ m.inputs.resetLow = false := by simpa [State.running] using hr
  simp [State.leaveCompletes, State.offlineWith, State.powerOnValues, LeftTheLine, State.settle, State.irqLevel,
    State.running, hrun, h1, h2, h3, h4, h5, h6, h7, PostLink.reset, State.reset]

end Sys2Proof.Machine
end

