-- ==== Sys2Proof/Tests/Slice0.lean ====
section
/-! SUPPORT. Tests: the checks of well-formedness, the spec's worked examples, one step of each command, and for
each statement with hypotheses states and operands that meet them. -/

namespace Sys2Proof.Tests

open Sys2Proof Sys2Proof.Machine

-- One theorem after the other: hundreds checked at once would ask for a thread each.
set_option Elab.async false

/-! ### Records, states and frames that the tests use -/

/-- START's fields: depot limit 400, stage rating 100, ramp step 20, lapse time 10, window end 1260, G0 to G3 cared
and LEVEL high, mode ALL, base target 300, clock window off, 100 rounds, wind-down 10, every notice, no plan. -/
def startFields : List Byte :=
  [0x01, 0x90, 100, 20, 10, 0x04, 0xEC, 0x81, 0x81, 0x81, 0x81, 1, 0x01, 0x2C] ++ List.replicate 8 0 ++
  [0, 0, 0, 0, 1, 0, 100, 10, 0x01, 0xFF, 0xFF, 0] ++ List.replicate 12 0 ++ [0x04, 0x38, 30]

/-- PROFILE's fields: C 300, Dm 1350, N 160, m 25, f 20, Pc 60 (06, A Bus Before an Activity Trip). -/
def profileFields : List Byte := [0x01, 0x2C, 0x05, 0x46, 0x00, 0xA0, 25, 20, 60]

/-- READING's fields: s 620, t -8, Pb 120, Pm 0. -/
def readingBytes : List Byte := [0x02, 0x6C, 0xF8, 120, 0]

def conf : Configuration := startConfiguration startFields

def bus : BusProfile := profileOf profileFields

def held : HeldReading := readingOf readingBytes

def straps : Straps := ⟨5, true⟩

/-- A station on the line: number 5 with the signal strap, an anchor at 0, its events to be raised, two seconds
and a half later; no cause but those given. -/
def station (st : StationState) (c : HoldCauses) : State :=
  { State.reset with
    now := 2500000
    control :=
      { State.reset.control with
        state := st, causes := c, number := some 5, signalStrap := some true, configuration := some conf }
    line := { State.reset.line with receiver := .on 0 }
    timer :=
      { State.reset.timer with
        anchor := some 0, roundCount := 7, fixed := true, slotPending := true, allocationPending := true
        allocations := 2 }
    plan := some (startPlan 5 [])
    inputs := { State.reset.inputs with plug := true } }

/-- MEMBER with the bus of the spec's example, exporting 50 kW of a grant of 60. -/
def member : State :=
  { station .member .empty with
    readiness := ReadinessUnit.computed { State.reset.readiness with profile := some bus, reading := some held } .empty (some conf)
    grant := { State.reset.grant with ownGrant := 60 }
    setpoint := State.reset.setpoint.at_ 50 (some conf) State.reset.readiness }

def stopCause : HoldCauses := { HoldCauses.empty with stop := true }

/-- The part between START and its join, START in flight. -/
def joining : State :=
  { station .joining .empty with
    link := State.reset.link.holding 0x01 49 startFields }

def leavingFrame : Frame :=
  { station := 5, core := ⟨.leaving, .empty, 0, 0, 0, 0, false⟩, signal := none, rider := .none }

/-- LEAVING at its last attempt, the LEAVE frame on its way from an instant on; it lasts 6,250 µs. -/
def leavingSince (start : Instant) : State :=
  { station .leaving .empty with
    control := { (station .leaving .empty).control with leaveAttempts := 3 }
    link := State.reset.link.holding 0x08 0 []
    line := { State.reset.line with receiver := .on 0, transmitter := .sending start leavingFrame } }

/-- The LEAVE frame has just gone out whole. -/
def leaving : State := leavingSince 2493750

/-- MEMBER with another anchor. -/
def anchored (a : Instant) : State := { member with timer := { member.timer with anchor := some a } }

/-- A frame of station 7 with a signal part and a ROSTER rider. -/
def peerFrame : Frame :=
  { station := 7
    core := ⟨.member, .empty, 50, 45, 20, 0x1234, true⟩
    signal := some ⟨.opened, 3, 300⟩
    rider := .roster 0x000008A0 }

def clockFrame : Frame := { peerFrame with rider := .clock 1 30 }

/-- A figure of the state a command leads to. -/
def after {α : Type} (c : Instr) (s : State) (f : State → α) : Option α :=
  match exec c s with
  | .next t => some (f t)
  | .fault _ => none
  | .refused _ => none

/-! ### Well-formedness: each check refuses a command that fails it -/

theorem test_write_selector_is_no_ignored_transaction :
    (Instr.ignoredTransaction 0 0x57 3).wellFormed = false := by decide

theorem test_read_selectors_are_no_ignored_transaction :
    (Instr.ignoredTransaction 0 0x52 3).wellFormed = false ∧
    (Instr.ignoredTransaction 0 0x46 0).wellFormed = false ∧
    (Instr.ignoredTransaction 0 0x58 3).wellFormed = true := by decide

/-- No levels, a recessive first one, a character cut off, idle levels at the end, an idle character time within;
then one character, with a good and with a dominant stop bit. -/
theorem test_transmission_levels :
    let wf (ls : List Level) : Bool := (Instr.transmissionEnd 0 ⟨ls⟩ false).wellFormed
    let c := charLevels 0x96
    wf [] = false ∧ wf (.recessive :: c) = false ∧ wf (c.take 9) = false ∧ wf (c ++ [.recessive]) = false ∧
    wf (c ++ List.replicate 10 .recessive ++ c) = false ∧ wf (c ++ List.replicate 9 .recessive ++ c) = true ∧
    wf c = true ∧ wf (c.take 9 ++ [.dominant]) = true ∧ wf (c.take 9 ++ [.dominant, .recessive]) = false := by decide +kernel

/-- 96h on the line (R1), and the durations R1 gives: a mark 1.56 ms, 12 characters 6.25 ms, 22 characters 11.46 ms. -/
theorem test_line_signalling :
    charLevels 0x96 =
      [.dominant, .dominant, .recessive, .recessive, .dominant, .recessive, .dominant, .dominant, .recessive, .recessive] ∧
    (transmission markChars).chars = markChars ∧ Config.markDuration = 1563 ∧ leavingFrame.duration = 6250 ∧
    peerFrame.duration = 11458 ∧ (transmission markChars).lasted = 2083 ∧ (transmission peerFrame.chars).lasted = 11979 := by
  decide +kernel

theorem test_no_word_spells_a_command : decodeTableWord 8 0x57 = none ∧ State.reset.withFetchWord 8 0x57 = State.reset := by
  decide +kernel

/-! ### The spec's worked examples -/

/-- CRC-16 with generator 1021h, initial value 0 (R5, R130). -/
theorem test_crc : crc16 [] = 0 ∧ crc16 [0x01] = 0x1021 ∧ crc16 [0x31, 0x32, 0x33, 0x34, 0x35, 0x36, 0x37, 0x38, 0x39] = 0x31C3 := by
  decide +kernel

/-- Frame lengths of R4, and a frame that reads back. -/
theorem test_frame_lengths :
    peerFrame.chars.length = 22 ∧ clockFrame.chars.length = 21 ∧ leavingFrame.chars.length = 12 ∧
    { peerFrame with rider := .none }.chars.length = 17 := by decide +kernel

theorem test_frame_reads_back :
    readFrame peerFrame.chars = some peerFrame ∧ readFrame clockFrame.chars = some clockFrame ∧
    readFrame leavingFrame.chars = some leavingFrame := by decide +kernel

/-- The characters of a LEAVE frame of station 5, written out from R3 (its CRC aside). -/
theorem test_leave_frame_body : leavingFrame.body = [0x05, 0x48, 0, 0, 0, 0, 0, 0, 0] := by decide +kernel

/-- The same without a bit: the LEAVE flag clear, a spare bit set, a state out of its range, a station over 31. -/
theorem test_bad_bodies :
    readBody [0x05, 0x08, 0, 0, 0, 0, 0, 0, 0] = none ∧ readBody [0x05, 0x49, 0, 0, 0, 0, 0, 0, 0] = none ∧
    readBody [0x05, 0x4C, 0, 0, 0, 0, 0, 0, 0] = none ∧ readBody [0x20, 0x48, 0, 0, 0, 0, 0, 0, 0] = none ∧
    readBody [0x05, 0x48, 0x40, 0, 0, 0, 0, 0, 0] = none ∧ readBody [0x05, 0x48, 0, 151, 0, 0, 0, 0, 0] = none := by
  decide +kernel

/-- 06, A Bus Before an Activity Trip: floor 119, estimate 186, offer 67 kWh and 50 kW. -/
theorem test_readiness :
    readinessFloor bus 1260 = 119 ∧ energyEstimate bus held = 186 ∧ member.readiness.offerEnergy = 67 ∧
    member.readiness.offerPower = 50 ∧ readinessFloor { bus with departure := 390 } 1260 = 60 := by decide +kernel

/-- 60 kW·s after a reading of s = 400: 119 kWh, and the offer is gone. -/
theorem test_tally_rounds_up :
    energyEstimate bus { held with charge := 400 } = 120 ∧
    energyEstimate bus { held with charge := 400, tally := 60000000 } = 119 := by decide +kernel

/-- A record of 07, One Round at Station 5. -/
def record (n : Nat) (received : Bool) (energy power announced : Nat) (d : Option Nat) : PeerRecord :=
  { number := n, received := received, core := ⟨.member, .empty, power, energy, announced, 0, true⟩, departure := d }

/-- The round view of 07, One Round at Station 5. -/
def view : RoundView :=
  { ownNumber := 5, ownState := .member, ownOffer := ⟨80, 120⟩, ownDeparture := some 400, sent := some ⟨80, 120⟩
    peers :=
      [record 2 true 120 60 0 (some 370), record 7 true 45 50 0 (some 360), record 9 false 10 10 40 none,
       record 11 true 200 40 0 none, record 14 true 0 0 0 (some 410)]
    received := 0, heard := 0x000048A4
    rosters := [0x000048A4, 0x000040A4, 0x00004AA4]
    liveCount := 6, census := 6, budget := 300, round := 8, frozenAt := 1660000 }

theorem test_chain_at_station_5 :
    view.available = 260 ∧ view.grants.map (fun g => (g.1.number, g.2)) = [(11, 40), (5, 80), (2, 60), (7, 50)] ∧
    view.grantList = [(2, 60), (5, 80), (7, 50), (11, 40)] ∧ view.ownGrant false = 80 := by decide +kernel

/-- The round after, and its split guard (07, A Missed Frame and the Guard). -/
theorem test_split_guard :
    let next : RoundView := { view with liveCount := 5, peers := view.peers.filter fun r => r.number ≠ 9 }
    next.available = 250 ∧ next.known = 6 ∧ next.ownGrant false = 80 ∧ next.ownGrant true = 41 := by
  decide +kernel

/-- R91: budgets of a wind-down of 10 rounds from 250 kW. -/
theorem test_wind_down :
    let closing : StepInput := { matched := false, previous := some ⟨⟨false, false, false, false⟩, false⟩, levels := ⟨false, false, false, false⟩, minute := 0 }
    let w : OwnWindow := { OwnWindow.reset with state := .opened, budget := 250, maxDuration := 50, sequence := 3 }
    (List.range 11).map (fun k => ((List.range (k + 1)).foldl (fun w _ => stepWindow conf closing w) w).budget) =
      [250, 225, 200, 175, 150, 125, 100, 75, 50, 25, 0] := by decide +kernel

/-- 04, Ten Rounds at Station 6: the kinds that go out from round 96 on. -/
theorem test_rider_plan :
    let start := startPlan 6 []
    let x (k : Nat) : PlanContext := { round := 96 + k, strap := true, profileHeld := true }
    let before (k : Nat) := (List.range k).foldl (fun p i => remark (x i) (chosenIndex (x i) p) p) start
    (List.range 10).map (fun k => chosenKind (x k) (before k)) =
      [some .clock, some .roster, some .roster, none, some .clock, some .roster, some .roster, some .profile, some .clock,
       some .roster] := by decide +kernel

/-- 01: station 5's slot at 290 ms, its timer at 2,005 ms. -/
theorem test_round_instants : Config.slotOpening 5 = 290000 ∧ Config.timerExpiry 5 = 2005000 := by decide

/-! ### One step of each command -/

theorem test_powerOn : after (.powerOn 10) member (fun t => (t.control.state, t.window.clock, t.now)) = some (.offline, 0, 2500010) := by
  decide +kernel

theorem test_resetAssert : after (.resetAssert 10) member (fun t => (t.running, t.setpoint.applied, t.link.irq)) = some (false, 0, false) := by
  decide +kernel

theorem test_resetRelease :
    after (.resetRelease 10) { member with inputs := { member.inputs with resetLow := true } } (fun t => (t.running, t.control.state)) =
      some (true, .offline) := by decide +kernel

theorem test_powerLoss : after (.powerLoss 10) joining (fun t => (t.running, t.link.request, t.link.response)) = some (false, none, none) := by
  decide +kernel

theorem test_ignoredTransaction : after (.ignoredTransaction 10 0x00 2) member (fun t => t.link.sdo) = some [0, 0, 0] := by
  decide +kernel

theorem test_writeRequest_unknown :
    after (.writeRequest 10 straps [0x0A, 0x00]) member (fun t => (t.link.response, t.link.busy, t.link.done)) =
      some (some ⟨0x0A, .unknown, []⟩, false, true) := by decide +kernel

theorem test_writeRequest_overrun : after (.writeRequest 10 straps [0x07, 0x00]) joining (fun t => t.link.overrun) = some true := by
  decide +kernel

theorem test_readResponse :
    after (.readResponse 10 4) { member with link := { member.link with done := true, response := some ⟨0x07, .ok, [0x2A]⟩ } }
      (fun t => (t.link.sdo, t.link.done)) = some ([0, 0x07, 0x01, 0x01, 0x2A], false) := by decide +kernel

theorem test_readFlags : after (.readFlags 10 1) joining (fun t => t.link.sdo) = some [0, 0x01] := by decide +kernel

theorem test_start :
    after (.start 10 straps 49 startFields) State.reset
      (fun t => (t.control.state, t.control.number, t.control.causes.noBus, t.link.busy, t.window.clock)) =
      some (.joining, some 5, true, true, 64830000000) := by decide +kernel

theorem test_start_range :
    after (.start 10 straps 49 (0 :: 0 :: startFields.drop 2)) State.reset (fun t => (t.control.state, t.link.response)) =
      some (.offline, some ⟨0x01, .range, [1]⟩) := by decide +kernel

theorem test_profile :
    after (.profile 10 9 profileFields) (station .holding stopCause) (fun t => (t.link.response, t.readiness.floor)) =
      some (some ⟨0x02, .ok, [0, 119, 0, 0]⟩, some 119) := by decide +kernel

theorem test_reading :
    after (.reading 10 5 readingBytes) { member with readiness := { member.readiness with reading := none } } (fun t => t.link.response) =
      some (some ⟨0x03, .ok, [50, 0, 67, 0]⟩) := by decide +kernel

theorem test_availAvailable :
    after (.availAvailable 10 1 []) (station .holding { HoldCauses.empty with withdrawn := true })
      (fun t => (t.control.state, t.link.response)) = some (.member, some ⟨0x04, .ok, []⟩) := by decide +kernel

theorem test_availWithdrawn :
    after (.availWithdrawn 10 1 []) member (fun t => (t.control.state, t.setpoint.applied, t.link.busy)) = some (.holding, 0, true) := by
  decide +kernel

theorem test_takeNotice :
    after (.takeNotice 10 0 []) { member with notices := [⟨.grantChanged, none, .number 60, 2, 3, 260⟩] }
      (fun t => (t.link.response, t.notices)) =
      some (some ⟨0x05, .ok, [5, 0xFF, 0, 60, 2, 0, 3, 1, 4]⟩, []) := by decide +kernel

theorem test_peer : after (.peer 10 1 [7]) member (fun t => t.link.response.map fun r => r.fields.take 4) = some (some [7, 0, 0, 1]) := by
  decide +kernel

theorem test_status :
    after (.status 10 0 []) member (fun t => t.link.response.map fun r => (r.fields.length, r.fields.take 5)) =
      some (some (33, [0x0F, 5, 1, 2, 0])) := by decide +kernel

theorem test_leave : after (.leave 10 0 []) member (fun t => (t.control.state, t.setpoint.applied, t.link.busy)) = some (.leaving, 0, true) := by
  decide +kernel

theorem test_restart : after (.restart 10 0 []) member (fun t => (t.control.state, t.link.response)) = some (.offline, some ⟨0x09, .ok, []⟩) := by
  decide +kernel

theorem test_transmissionEnd_frame :
    after (.transmissionEnd 10 (transmission peerFrame.chars) false) (anchored 2098031)
      (fun t => ((t.peers.entry 7).presence, (t.peers.entry 7).core.map (fun c => c.offerPower), t.timer.anchor)) =
      some (.fresh, some 50, some 2098031) := by decide +kernel

theorem test_transmissionEnd_mark :
    after (.transmissionEnd 10 (transmission markChars) false) member (fun t => (t.timer.anchor, t.timer.roundCount)) =
      some (some 2497927, 8) := by decide +kernel

theorem test_roundTimerExpiry :
    after (.roundTimerExpiry 10 true) member (fun t => (t.timer.anchor, t.timer.roundCount, t.line.transmitter)) =
      some (some 2005000, 8, .mark 2005000) := by decide +kernel

theorem test_ownSlotOpening :
    after (.ownSlotOpening 10 true) member
      (fun t => match t.line.transmitter with
        | .sending _ f => some (f.station, f.core.offerPower, f.rider.kind)
        | .silent => none
        | .waiting _ _ => none
        | .mark _ => none) = some (some (5, 50, .roster)) := by decide +kernel

theorem test_allocationPoint :
    after (.allocationPoint 10 ⟨0, 0, 0⟩) member
      (fun t => (t.grant.runStatus, t.peers.liveCount, t.peers.authority, t.grant.view.map fun v => v.budget)) =
      some (.inFlight, 1, some 5, some 0) := by decide +kernel

theorem test_allocationPoint_joins :
    after (.allocationPoint 10 ⟨0, 0, 0⟩) joining (fun t => (t.control.state, t.link.response)) =
      some (.member, some ⟨0x01, .ok, [5, 1]⟩) := by decide +kernel

/-- MEMBER with the run of the example's view in flight. -/
def inRun : State :=
  { member with now := 1700000, grant := { member.grant with runStatus := .inFlight, view := some view } }

theorem test_runCompletion :
    after (.runCompletion 10) inRun (fun t => (t.grant.ownGrant, t.setpoint.applied, t.setpoint.duty, t.grant.runStatus)) =
      some (80, 70, 700, .completed) := by decide +kernel

/-- A frame that waits for the line since an own slot opening. -/
def waiting (opening : Instant) : State :=
  { member with line := { member.line with transmitter := .waiting opening peerFrame } }

theorem test_frameStartDeferred : after (.frameStartDeferred 10) (waiting 2499000) (fun t => t.line.transmitter) = some (.sending 2500010 peerFrame) := by
  decide +kernel

theorem test_slotStartDeadline : after (.slotStartDeadline 10) (waiting 2495000) (fun t => t.line.transmitter) = some .silent := by
  decide +kernel

/-- FRAME_SENT completes the LEAVE at the frame's end and not before. -/
theorem test_frameSent :
    after (.frameSent 10) leaving (fun t => (t.control.state, t.link.response)) = some (.offline, some ⟨0x08, .ok, [1]⟩) ∧
    after (.frameSent 10) (leavingSince 2493761) (fun t => t.control.state) = some .leaving := by decide +kernel

theorem test_readbackMismatch :
    after (.readbackMismatch 10 false)
      { leaving with line := { (leavingSince 2499000).line with readbackFailures := 2 } }
      (fun t => (t.control.state, t.link.response)) = some (.faulted, some ⟨0x08, .faulted, []⟩) := by decide +kernel

theorem test_plugFall : after (.plugFall 10) member (fun t => (t.control.state, t.setpoint.applied, t.readiness.profile)) = some (.holding, 0, none) := by
  decide +kernel

theorem test_plugRise :
    after (.plugRise 10) { station .holding { HoldCauses.empty with noBus := true } with inputs := State.reset.inputs }
      (fun t => (t.control.causes.noBus, t.control.causes.noProfile, t.control.causes.noReading)) = some (false, true, true) := by
  decide +kernel

theorem test_stopActive :
    after (.stopActive 10) member (fun t => (t.control.state, t.setpoint.permit, t.notices.map fun e => e.kind)) =
      some (.holding, false, [.stopChanged]) := by decide +kernel

theorem test_stopRelease :
    after (.stopRelease 10) { station .holding stopCause with inputs := { State.reset.inputs with stop := true } } (fun t => t.control.state) =
      some .member := by decide +kernel

theorem test_gridInputChange : after (.gridInputChange 10 .g2 true) member (fun t => t.inputs.grid) = some ⟨false, false, true, false⟩ := by
  decide +kernel

theorem test_readingLapse :
    after (.readingLapse 10000001) member (fun t => (t.control.state, t.setpoint.applied, t.notices.map fun e => e.kind)) =
      some (.holding, 0, [.readingLapsed]) := by decide +kernel

theorem test_lineIdleAfterStart :
    after (.lineIdleAfterStart 10) { joining with line := { joining.line with receiver := .awaitingIdle } } (fun t => t.line.receiver) =
      some (.on 2500010) := by decide +kernel

theorem test_stagePeriodStart :
    after (.stagePeriodStart 10) member (fun t => (t.setpoint.lineDuty, t.setpoint.periodStart, t.stageHigh)) =
      some (500, some 2500010, true) := by decide +kernel

/-- A duty of 500 in effect, a rise to 700 waiting, in a STAGE period that began at `p`. -/
def inPeriod (p : Instant) : State :=
  { member with setpoint := { member.setpoint with duty := 700, lineDuty := 500, periodStart := some p } }

/-- 300 µs into a period no other starts; 1,300 µs after its start one began 300 µs ago. -/
theorem test_stagePeriods_are_1000_apart :
    after (.stagePeriodStart 300) (inPeriod 2500000) (fun t => (t.setpoint.lineDuty, t.setpoint.periodStart)) =
      some (500, some 2500000) ∧
    after (.stagePeriodStart 1300) (inPeriod 2500000) (fun t => (t.setpoint.lineDuty, t.setpoint.periodStart)) =
      some (700, some 2501000) ∧
    (inPeriod 2499600).stageHigh = true ∧ (inPeriod 2499500).stageHigh = false ∧ (inPeriod 2498600).stageHigh = true := by
  decide +kernel

/-! ### States and operands that meet the hypotheses of each statement -/

def off : State := { member with inputs := { member.inputs with powered := false } }

def resetHeld : State := { member with inputs := { member.inputs with resetLow := true } }

theorem witness_EveryCommandAnswers : State.reset.pending = [] := rfl

theorem witness_TimePasses : member.running = true ∧ off.running = false ∧ resetHeld.running = false := by decide +kernel

theorem witness_SupplyAndResetGivePowerOnValues : resetHeld.inputs.resetLow = true ∧ member.inputs.resetLow = false := by decide +kernel

theorem witness_NothingHappensOutOfService :
    off.running = false ∧ reachesInputs (.status 7 0 []) = false ∧ elapsed (.status 7 0 []) = 7 := by decide +kernel

theorem witness_IrqFollows : ∃ t, exec (.readFlags 3 1) member = .next t := ⟨_, rfl⟩

theorem witness_TransactionsWithoutEffect :
    transactionOf 0x00 = none ∧ transactionOf 0x45 = none ∧ transactionOf 0x47 = none ∧ transactionOf 0x53 = none ∧
    transactionOf 0x56 = none ∧ transactionOf 0xFF = none ∧ member.running = true ∧ (Instr.ignoredTransaction 0 0x00 9).wellFormed = true ∧ ([0x01] : List Byte).length < 2 ∧
    joining.running = true ∧ 2 ≤ ([0x01, 0x00] : List Byte).length ∧ joining.link.busy = true := by decide +kernel

theorem accepts_member : member.accepts := by unfold State.accepts; decide +kernel

theorem accepts_reset : State.reset.accepts := by unfold State.accepts; decide +kernel

theorem witness_RequestChecksInOrder :
    member.accepts ∧ kindOfByte 0x00 = none ∧ kindOfByte 0x0A = none ∧
    (kindOfByte 0x09 = some .restart ∧ ¬((0x01 : Byte).toNat = kindLength .restart ∧ ([] : List Byte).length = (0x01 : Byte).toNat)) ∧
    (kindOfByte 0x06 = some .peer ∧ ¬((0x01 : Byte).toNat = kindLength .peer ∧ ([3, 4] : List Byte).length = (0x01 : Byte).toNat)) ∧
    (kindOfByte 0x01 = some .start ∧ startFields.length = kindLength .start ∧ kindAllowed .start member.control.state = false) ∧
    (kindAllowed .peer member.control.state = true ∧ firstBad (fieldChecks .peer [32]) = some 1 ∧
      firstBad (fieldChecks .peer [31]) = none) := by
  refine ⟨accepts_member, ?_⟩
  decide +kernel

/-- START's three checks over more than one field (R161), and a grid specification of LEVEL with sense 11. -/
theorem witness_request_fields :
    let with_ (i : Nat) (b : Byte) : List Byte := startFields.set i b
    firstBad (fieldChecks .start startFields) = none ∧
    firstBad (fieldChecks .start ((with_ 24 5).set 26 5)) = some 18 ∧ firstBad (fieldChecks .start (with_ 33 5)) = some 22 ∧
    firstBad (fieldChecks .start (with_ 33 1)) = some 23 ∧
    firstBad (fieldChecks .start ((((with_ 33 1).set 34 1).set 35 16).set 36 15)) = none ∧
    firstBad (fieldChecks .start ((((with_ 33 1).set 34 1).set 35 16).set 36 16)) = some 23 ∧
    firstBad (fieldChecks .start (with_ 10 0x83)) = some 9 ∧ firstBad (fieldChecks .start (with_ 30 2)) = some 21 := by
  decide +kernel

theorem witness_StartEntersJoining :
    State.reset.accepts ∧ checkRequest (kindCode .start) 49 startFields State.reset.control.state = .pass .start :=
  ⟨accepts_reset, by decide +kernel⟩

theorem witness_ProfileIsTakenWithABus :
    (member.accepts ∧ checkRequest (kindCode .profile) 9 profileFields member.control.state = .pass .profile ∧ member.inputs.plug = true) ∧
    (let s := { station .holding stopCause with inputs := State.reset.inputs }
     s.running = true ∧ s.link.busy = false ∧ checkRequest (kindCode .profile) 9 profileFields s.control.state = .pass .profile ∧
       s.inputs.plug = false) :=
  ⟨⟨accepts_member, by decide +kernel⟩, by decide +kernel⟩

theorem witness_ReadingIsTaken :
    member.accepts ∧ checkRequest (kindCode .reading) 5 readingBytes member.control.state = .pass .reading :=
  ⟨accepts_member, by decide +kernel⟩

theorem witness_AvailMovesTheWithdrawal :
    member.accepts ∧ checkRequest (kindCode .avail) 1 [0x00] member.control.state = .pass .avail ∧
    member.control.causes.withdrawn = false ∧ checkRequest (kindCode .avail) 1 [0x01] member.control.state = .pass .avail :=
  ⟨accepts_member, by decide +kernel⟩

/-- A notice whose key is queued second, at a repeat count of 255, and one whose key is not queued. -/
theorem witness_fold :
    let q : List NoticeEntry := [⟨.grantChanged, none, .number 60, 2, 3, 7⟩, ⟨.peerChanged, some 7, .presence .fresh, 255, 3, 7⟩]
    let same (n : Notice) (e : NoticeEntry) : Bool := decide (e.kind = n.kind) && decide (e.subject = n.subject)
    q.map (same (peerNotice 7 .stale)) = [false, true] ∧ q.map (same (peerNotice 8 .stale)) = [false, false] ∧
    member.enabled .peerChanged = true ∧ State.reset.enabled .peerChanged = false ∧
    folded member.enabled 9 [peerNotice 7 .stale, peerNotice 8 .fresh] q =
      [⟨.grantChanged, none, .number 60, 2, 3, 7⟩, ⟨.peerChanged, some 7, .presence .stale, 255, 3, 9⟩,
        ⟨.peerChanged, some 8, .presence .fresh, 1, 9, 9⟩] := by decide +kernel

def queued : State := { member with notices := [⟨.grantChanged, none, .number 60, 2, 3, 260⟩] }

theorem witness_TakeNoticeTakesTheHead :
    (member.accepts ∧ member.notices = []) ∧ queued.accepts ∧ queued.notices = [⟨.grantChanged, none, .number 60, 2, 3, 260⟩] := by
  unfold State.accepts; decide +kernel

theorem witness_PeerAndStatusAnswer : member.accepts ∧ (0x1F : Byte).toNat ≤ 31 := ⟨accepts_member, by decide⟩

theorem witness_LeaveEntersLeaving :
    (member.accepts ∧ member.control.state = .member) ∧ (station .holding stopCause).accepts ∧
    (station .holding stopCause).control.state = .holding := by unfold State.accepts; decide +kernel

theorem witness_RestartReturnsPowerOnValues : State.reset.accepts ∧ member.accepts := ⟨accepts_reset, accepts_member⟩

theorem witness_ReadsSendTheRecordAndTheFlags :
    (let s := { member with link := { member.link with done := true, response := some ⟨0x07, .ok, []⟩ } }
     s.running = true ∧ s.link.done = true ∧ s.link.response = some ⟨0x07, .ok, []⟩) ∧
    member.running = true ∧ member.link.done = false := by decide +kernel

/-- A reception of n characters 96h, the last stop bit of them dominant or not. -/
def long (n : Nat) (fault : Bool) : Reception :=
  ⟨(transmission (List.replicate n 0x96)).levels.dropLast ++ [if fault then .dominant else .recessive]⟩

theorem witness_ClassesOfTransmissions :
    (long 3 false).chars.length < 4 ∧ (4 ≤ (long 4 false).chars.length ∧ (long 4 false).chars.head? = some 0x96) ∧
    (4 ≤ (long 22 false).chars.length ∧ (long 22 false).chars.length ≤ 22) ∧ 22 < (long 23 false).chars.length ∧
    (long 22 true).framingFault = true ∧ ([0x4D, 0x4D, 0xB2] : List Byte) = markChars := by decide +kernel

/-- What the part drives while a frame goes out: recessive before its start, then 52 µs of start bit, the bits of 96h
from 53 µs (0) and 105 µs (1) on, the last stop bit, and nothing after its end; a line with two drivers; a break. -/
theorem witness_levels_of_the_line :
    [-1, 0, 52, 53, 104, 105, 6249, 6250].map (fun d : Int => (leavingSince (2500000 - d)).driving) =
      [.recessive, .dominant, .dominant, .dominant, .dominant, .recessive, .recessive, .recessive] ∧
    625 * ((0 : Nat) : Int) ≤ 12 * 52 ∧ 12 * 52 < 625 * (((0 : Nat) : Int) + 1) ∧ 625 * ((1 : Nat) : Int) ≤ 12 * 53 ∧
    625 * ((2 : Nat) : Int) ≤ 12 * 105 ∧ member.driving = .recessive ∧ (waiting 2499000).driving = .recessive ∧
    { member with line := { member.line with transmitter := .mark 2500000 } }.driving = .dominant ∧
    lineLevel [.recessive, .dominant] = .dominant ∧ lineLevel [.recessive, .recessive] = .recessive ∧ lineLevel [] = .recessive ∧
    (⟨List.replicate 11 .dominant⟩ : Reception).framingFault = true ∧
    (⟨(charLevels 0x00).take 9 ++ [.recessive]⟩ : Reception).framingFault = false := by decide +kernel

theorem witness_FrameLengthsAndTags : readFrame peerFrame.chars ≠ none := by decide +kernel

/-- Every field at the top of its range. -/
def fullFrame (r : Rider) : Frame :=
  { station := 31
    core := ⟨.holding, ⟨true, true, true, true, true, true⟩, 150, 400, 255, 0xFFFF, true⟩
    signal := some ⟨.winding, 15, 2000⟩
    rider := r }

theorem witness_FrameReadsBack :
    (fullFrame (.profile 1439 400)).valid = true ∧ (fullFrame (.clock 1439 59)).valid = true ∧ leavingFrame.valid = true := by
  decide +kernel

theorem witness_GoodFramesAreTheSentOnes :
    readFrame (fullFrame (.profile 1439 400)).chars = some (fullFrame (.profile 1439 400)) := by decide +kernel

/-- The Peer Table of `member` with an entry for station 7. -/
def withPeer (e : PeerEntry) : State := { member with peers := { member.peers with entries := member.peers.entries.set 7 e } }

def freshEntry : PeerEntry :=
  { PeerEntry.reset with
    presence := .fresh, core := some peerFrame.core, signal := peerFrame.signal, lastHeard := some 6, standing := .fresh }

theorem witness_FramesAreStored :
    peerFrame.station < member.peers.entries.length ∧ peerFrame.core.state ≠ .leaving ∧
    (member.peers.entry 7).presence.isPresent = false ∧ ((withPeer freshEntry).peers.entry 7).presence.isPresent = true ∧
    { leavingFrame with station := 7 }.core.state = .leaving := by decide +kernel

/-- A station whose anchor lies `d` µs after the one that a frame of station 7 that ends now implies. -/
def offBy (d : Int) : State := anchored (2500000 - 11979 - 390000 + d)

def unfixed : State := { member with timer := { member.timer with fixed := false } }

theorem witness_PeerFramesMoveTheAnchor :
    let r := transmission peerFrame.chars
    let m (d : Int) : State := (offBy d).advance 0
    let start (d : Int) : Instant := (m d).now - (r.lasted : Int)
    unfixed.running = true ∧ unfixed.timer.anchor = some 0 ∧
    (∀ d ∈ [-200000, -199999, -8001, -8000, 0, 8000, 8001, 199999, 200000],
      (offBy d).running = true ∧ (offBy d).timer.anchor = some (2098021 + d) ∧
      (offBy d).line.receives (start d) (m d).now = true ∧ classify r = .candidate r.chars ∧
      readFrame r.chars = some peerFrame ∧ (offBy d).control.number ≠ some peerFrame.station ∧
      (start d - 1000 * (40 + 50 * (7 : Int)) - (2098021 + d)).natAbs = d.natAbs) ∧
    unfixed.timer.fixed = false ∧ member.timer.fixed = true := by decide +kernel

def authorityState (clock : Nat) : State :=
  { member with window := { member.window with clock := clock }, peers := { member.peers with authority := some 7 } }

theorem witness_ClockRidersOfTheAuthorityAreJudged :
    let size (c : Nat) : Int := ((1000000 * 90 : Int) - ((c : Int) - 2500000)) % 86400000000
    (member.judgeClock leavingFrame = member ∧ leavingFrame.rider = .none) ∧
    member.timer.anchor = some 0 ∧ clockFrame.rider = .clock 1 30 ∧ member.peers.authority ≠ some clockFrame.station ∧
    (authorityState 0).peers.authority = some clockFrame.station ∧ (authorityState 0).now - 0 = 2500000 ∧
    size 92500000 = 0 ∧ size 91500001 = 999999 ∧ size 91500000 = 1000000 ∧ size 32500000 = 60000000 ∧
    size 32499999 = 60000001 := by decide +kernel

theorem witness_UnusableTransmissionsAreCounted :
    let m := member.advance 0
    let own (e : Instant) : LineInterface := { member.line with ownUntil := some e }
    let received (t : Transmitter) : Bool := { member.line with transmitter := t }.receives 2498400 m.now
    m.now = 2500000 ∧ (own 2498400).receives 2498400 m.now = false ∧ (own 2498399).receives 2498400 m.now = true ∧
    [Transmitter.silent, .waiting 2499000 peerFrame, .sending 2500000 peerFrame, .sending 2499999 peerFrame,
      .sending 2492149 leavingFrame, .sending 2492150 leavingFrame, .mark 2500000, .mark 2499999, .mark 2496836, .mark 2496837].map
      received = [true, true, true, false, true, false, true, false, true, false] ∧
    { joining.line with receiver := .awaitingIdle }.receives 2498400 m.now = false ∧
    { member.line with receiver := .on 2498401 }.receives 2498400 m.now = false ∧
    { member.line with receiver := .on 2498400 }.receives 2498400 m.now = true ∧
    member.running = true ∧ { member with line := State.reset.line }.line.receives m.now m.now = false ∧
    classify (long 3 false) = .fragment ∧ classify (long 23 false) = .corrupt ∧
    classify (long 12 false) = .candidate (long 12 false).chars ∧ readFrame (long 12 false).chars = none ∧
    (long 12 false).levels.length = 120 ∧ member.line.receives (m.now - ((long 12 false).lasted : Int)) m.now = true ∧
    classify (transmission markChars) = .mark ∧
    (let late := (anchored 597918).advance 0
     late.timer.fixed = true ∧ late.now - ((transmission markChars).lasted : Int) < 597918 + 1900000) := by decide +kernel

theorem witness_HonouredMarksOpenARound :
    let m := member.advance 0
    let start : Instant := m.now - ((transmission markChars).lasted : Int)
    (anchored 597917).running = true ∧ (anchored 597917).timer.anchor = some 597917 ∧ classify (transmission markChars) = .mark ∧
    (anchored 597917).line.receives start m.now = true ∧ (anchored 597917).timer.fixed = true ∧ 597917 + 1900000 = start ∧
    unfixed.timer.anchor = some 0 ∧ unfixed.timer.fixed = false ∧ unfixed.line.receives start m.now = true := by decide +kernel

theorem witness_AbortKeepsTheLastCompletedRun :
    inRun.grant.runStatus = .inFlight ∧ inRun.grant.view = some view ∧ member.grant.runStatus ≠ .inFlight := by decide +kernel

theorem witness_RoundOpeningsCountMisses :
    (member.control.state = .member ∧ member.timer.outcome = .noAllocation ∧ member.timer.runMisses ≠ 1) ∧
    (let s := { member with timer := { member.timer with runMisses := 1 } }
     s.control.state = .member ∧ s.timer.outcome = .noAllocation ∧ s.timer.runMisses = 1) ∧
    { member with timer := { member.timer with outcome := .completed } }.timer.outcome = .completed ∧
    (member.control.configuration = some conf ∧ member.control.signalStrap = some true ∧ joining.control.state = .joining ∧
      joining.control.configuration = some conf ∧ State.reset.control.configuration = none ∧ leaving.control.state = .leaving) := by
  decide +kernel

theorem witness_RoundTimerOpensARound :
    member.running = true ∧ member.timer.anchor = some 0 ∧
    ((0 : Instant) + ((1000 * (2000 + member.control.number.getD 0) : Nat) : Int) ≤ (member.advance 0).now) ∧
    member.control.state = .member ∧ member.line.transmitter = .silent ∧ (station .faulted .empty).control.state = .faulted ∧
    (let early := { member with now := 2004999 }
     early.running = true ∧ early.timer.anchor = some 0 ∧
       (early.advance 0).now < (0 : Instant) + ((1000 * (2000 + early.control.number.getD 0) : Nat) : Int)) ∧
    State.reset.running = true ∧ State.reset.timer.anchor = none := by decide +kernel

def ownFrame : Reception := transmission ({ peerFrame with station := 5 } : Frame).chars

theorem witness_OwnNumberHeardIsADuplicate :
    member.running = true ∧
    member.line.receives ((member.advance 0).now - (ownFrame.lasted : Int)) (member.advance 0).now = true ∧
    classify ownFrame = .candidate ownFrame.chars ∧ readFrame ownFrame.chars = some { peerFrame with station := 5 } ∧
    member.control.number = some 5 ∧ member.control.state = .member ∧ (station .faulted .empty).control.state = .faulted := by
  decide +kernel

/-- What stops with an entry into FAULTED, and an own transmission stopped before its end and after it. -/
theorem witness_stopped :
    let line (t : Transmitter) : LineInterface := { member.line with transmitter := t }
    let seen (l : LineInterface) : Transmitter × Option Instant := (l.transmitter, l.ownUntil)
    [Transmitter.silent, .waiting 9 peerFrame, .sending 1000 leavingFrame, .mark 1000].map (fun t => seen ((line t).frameStopped 7249)) =
      [(.silent, none), (.silent, none), (.silent, some 7249), (.mark 1000, none)] ∧
    seen ((line (.sending 1000 leavingFrame)).stopped 7251) = (.silent, some 7250) ∧
    seen ((line (.mark 1000)).stopped 2562) = (.silent, some 2562) ∧
    seen ((line (.mark 1000)).stopped 2564) = (.silent, some 2563) := by decide +kernel

theorem witness_CutFramesCountToADuplicate :
    leaving.running = true ∧ leaving.line.transmitter = .sending 2493750 leavingFrame ∧
    2493750 + (((6250 * leavingFrame.chars.length + 6) / 12 : Nat) : Int) ≤ (leaving.advance 0).now ∧
    (leavingSince 2493751).line.transmitter = .sending 2493751 leavingFrame ∧
    ((leavingSince 2493751).advance 0).now < 2493751 + (((6250 * leavingFrame.chars.length + 6) / 12 : Nat) : Int) ∧
    { leaving with line := { leaving.line with readbackFailures := 2 } }.line.readbackFailures = 2 ∧
    leaving.control.state.watches = true ∧ leaving.line.readbackFailures < 2 ∧
    (leavingFrame.core.state = .leaving ∧ leaving.control.state = .leaving ∧ 3 ≤ leaving.control.leaveAttempts) ∧
    peerFrame.core.state ≠ .leaving ∧
    (let s := { member with line := { member.line with transmitter := .mark 2499000 } }
     s.line.transmitter = .mark 2499000 ∧ (s.advance 562).now < 2499000 + 1563 ∧ 2499000 + 1563 ≤ (s.advance 563).now) ∧
    member.line.transmitter = .silent := by decide +kernel

/-- A withdrawal in flight while a frame that carries it is being sent, built after it was taken or before. -/
def withdrawing (after_ : Bool) : State :=
  { member with
    control := { member.control with withdrawalPending := true, announcementBuilt := after_ }
    link := member.link.holding 0x04 1 [1]
    line :=
      { member.line with
        transmitter := .sending 2488000 { peerFrame with station := 5, core := { peerFrame.core with causes := { HoldCauses.empty with withdrawn := true } } } } }

theorem witness_SentFramesComplete :
    (leaving.running = true ∧ leaving.line.transmitter = .sending 2493750 leavingFrame ∧
      2493750 + (((6250 * leavingFrame.chars.length + 6) / 12 : Nat) : Int) ≤ (leaving.advance 0).now ∧
      ((leavingSince 2493751).advance 0).now < 2493751 + (((6250 * leavingFrame.chars.length + 6) / 12 : Nat) : Int) ∧ leavingFrame.core.state = .leaving ∧
      leaving.control.state = .leaving) ∧
    ((withdrawing true).running = true ∧ (withdrawing true).control.withdrawalPending = true ∧
      (withdrawing true).control.announcementBuilt = true ∧ (withdrawing true).link.request = some ⟨0x04, 1, [1]⟩) ∧
    (withdrawing false).control.announcementBuilt = false ∧ member.control.withdrawalPending = false ∧
    member.line.transmitter = .silent := by decide +kernel

/-- R164: the frame built before the AVAIL leaves it in flight, the next one built completes it. -/
theorem test_frameSent_withdrawn :
    after (.frameSent 10) (withdrawing false) (fun t => (t.link.busy, t.control.withdrawalPending)) = some (true, true) ∧
    after (.frameSent 10) (withdrawing true) (fun t => (t.link.busy, t.link.response)) = some (false, some ⟨0x04, .ok, []⟩) ∧
    after (.ownSlotOpening 10 true) (withdrawing false) (fun t => t.control.announcementBuilt) = some true := by
  decide +kernel

theorem witness_WaitingFramesStartOrAreBlocked :
    (waiting 2495000).running = true ∧ (waiting 2495000).line.transmitter = .waiting 2495000 peerFrame ∧
    ((waiting 2495000).advance 0).now ≤ 2495000 + 5000 ∧ 2495000 + 5000 ≤ ((waiting 2495000).advance 0).now ∧
    2495000 + 5000 < ((waiting 2495000).advance 1).now ∧ ((waiting 2495001).advance 0).now < 2495001 + 5000 ∧
    member.line.transmitter = .silent ∧ member.line.receiver = .on 0 ∧
    ¬(peerFrame.core.state = .leaving) ∧
    { leaving with line := { leaving.line with transmitter := .waiting 2495000 leavingFrame } }.control.leaveAttempts = 3 ∧
    { joining with line := { joining.line with receiver := .awaitingIdle } }.line.receiver = .awaitingIdle := by decide +kernel

theorem witness_RiderSelection :
    let x : PlanContext := { round := 96, strap := true, profileHeld := true }
    let y : PlanContext := { round := 99, strap := true, profileHeld := true }
    let owed : List RiderEntry := (startPlan 6 []).map fun e => { e with owed := decide (e.entry.kind = .roster) }
    chosenIndex x (startPlan 6 []) = some 0 ∧ chosenIndex x owed = some 1 ∧ chosenIndex y (startPlan 6 []) = none := by
  decide +kernel

theorem witness_OwnSlotOpeningBuildsTheFrame :
    let x : PlanContext := { round := 7, strap := true, profileHeld := true }
    member.running = true ∧ member.timer.anchor = some 0 ∧ member.timer.slotPending = true ∧
    (0 : Instant) + ((1000 * (40 + 50 * member.control.number.getD 0) : Nat) : Int) ≤ (member.advance 0).now ∧
    member.control.state = .member ∧ joining.control.state = .joining ∧ member.control.signalStrap = some true ∧
    chosenKind x (startPlan 5 []) = some .roster ∧ chosenKind { x with round := 5 } (startPlan 5 [⟨.profile, 8, 5⟩]) = some .profile ∧
    chosenKind { x with round := 8 } (startPlan 5 []) = some .clock ∧ chosenKind { x with round := 6 } (startPlan 5 []) = none ∧
    (let early := { member with now := 289999 }
     (early.advance 0).now < (0 : Instant) + ((1000 * (40 + 50 * early.control.number.getD 0) : Nat) : Int)) ∧
    State.reset.timer.anchor = none ∧ { member.timer with slotPending := false }.slotPending = false := by decide +kernel

theorem atAllocation_of {s : State} {dt : Nat} {c : Configuration} {a : Instant} (h1 : s.running = true)
    (h2 : s.control.configuration = some c) (h3 : s.timer.allocationPending = true) (h4 : s.timer.anchor = some a)
    (h5 : a + 1660000 ≤ s.now + (dt : Int)) : s.atAllocation dt c := ⟨h1, h2, h3, a, h4, h5⟩

theorem witness_AllocationPointAgesAndAdopts : member.atAllocation 0 conf ∧ member.peers.entries.length = 32 :=
  ⟨atAllocation_of (a := 0) (by decide +kernel) (by decide +kernel) (by decide +kernel) (by decide +kernel) (by decide +kernel), by decide +kernel⟩

theorem witness_allocation_point_not_due :
    (let early := { member with now := 1659999 }
     early.running = true ∧ early.timer.anchor = some 0 ∧ (early.advance 0).now < (0 : Instant) + 1660000) ∧
    State.reset.running = true ∧ State.reset.timer.anchor = none ∧
    { member.timer with allocationPending := false }.allocationPending = false := by decide +kernel

theorem witness_AllocationPointJudgesAndJoins :
    (joining.atAllocation 0 conf ∧ joining.peers.entries.length = 32) ∧
    joining.control.state = .joining ∧ 1 ≤ joining.timer.allocations ∧ joining.link.request = some ⟨0x01, 49, startFields⟩ ∧
    member.control.state.joined = true :=
  ⟨⟨atAllocation_of (a := 0) (by decide +kernel) (by decide +kernel) (by decide +kernel) (by decide +kernel) (by decide +kernel), by decide +kernel⟩,
    by decide +kernel⟩

theorem witness_AllocationPointFreezesTheView :
    (leaving.atAllocation 0 conf ∧ leaving.peers.entries.length = 32) ∧ leaving.control.state.runs = false ∧
    member.control.state.runs = true :=
  ⟨⟨atAllocation_of (a := 0) (by decide +kernel) (by decide +kernel) (by decide +kernel) (by decide +kernel) (by decide +kernel), by decide +kernel⟩,
    by decide +kernel⟩

/-- Notices of other blocks between and after those whose order is given. -/
theorem witness_arrival :
    let n (k : Nat) : Notice := grantNotice k
    arrivalOrder ⟨1, 0, 9⟩ [n 1, n 2] [n 3] [n 4] [n 5] = [n 4, n 1, n 3, n 2, n 5] ∧
    Presence.sameKind (.absent .left) (.absent .silent) = true ∧ Presence.sameKind .fresh .stale = false := by decide +kernel

theorem witness_RunsComplete :
    inRun.running = true ∧ inRun.grant.runStatus = .inFlight ∧ inRun.grant.view = some view ∧
    inRun.control.configuration = some conf ∧ (inRun.advance 60000).now ≤ view.frozenAt + 100000 ∧
    view.frozenAt + 100000 < (inRun.advance 60001).now ∧ member.grant.runStatus ≠ .inFlight ∧ member.grant.view = none ∧
    view.ownChainGrant = 80 ∧ { view with ownState := .holding }.ownChainGrant = 0 ∧ view.known = 6 := by decide +kernel

theorem witness_ChainOfAView :
    view.liveCount ≤ view.census ∧ (view.peers.map fun r => r.number).Nodup ∧ ∀ r ∈ view.peers, r.number ≠ view.ownNumber := by
  decide +kernel

theorem witness_GrantsOfTheTwoPasses : (twoPasses view.available view.chain)[1]? = some (⟨5, 80, 120, some 400⟩, 80) := by decide +kernel

/-- The view of another station that saw the same figures: station 5 is a peer there. -/
def otherView : RoundView :=
  { view with
    ownNumber := 2, ownOffer := ⟨60, 120⟩, sent := some ⟨60, 120⟩, ownDeparture := some 370
    peers :=
      [record 5 true 120 80 0 (some 400), record 7 true 45 50 0 (some 360), record 9 false 10 10 40 none,
       record 11 true 200 40 0 none, record 14 true 0 0 0 (some 410)] }

theorem witness_SameFiguresSameDigest :
    (view.candidates.map fun c => c.number).Nodup ∧ view.candidates.Perm otherView.candidates ∧
    view.available = otherView.available := by
  refine ⟨by decide +kernel, ?_, by decide +kernel⟩
  have e : view.candidates = [⟨5, 80, 120, some 400⟩, ⟨2, 60, 120, some 370⟩, ⟨7, 50, 45, some 360⟩, ⟨11, 40, 200, none⟩] := by decide +kernel
  have e' : otherView.candidates = [⟨2, 60, 120, some 370⟩, ⟨5, 80, 120, some 400⟩, ⟨7, 50, 45, some 360⟩, ⟨11, 40, 200, none⟩] := by decide +kernel
  rw [e, e']
  exact List.Perm.swap _ _ _

theorem witness_EnergyEstimate :
    member.readiness.profile = some bus ∧ member.readiness.reading = some held ∧ bus.capacity ≤ 400 ∧ held.charge ≤ 1000 ∧
    State.reset.readiness.profile = none ∧ { held with tally := 3600000001 }.tally ≤ 2 * 3600000000 ∧ held.tally ≤ 0 * 3600000000 := by
  decide +kernel

theorem witness_ReadinessFloor : State.reset.readiness.profile = none ∧ member.readiness.profile = some bus ∧ bus.need ≤ 400 ∧ bus.coldMargin ≤ 100 := by
  decide +kernel

theorem witness_OfferFigures :
    let R := ReadinessUnit.computed member.readiness .empty (some conf)
    let cold (t : Int) : ReadinessUnit := { member.readiness with reading := some { held with temperature := t } }
    (R.estimate = some 186 ∧ R.floor = some 119 ∧ R.offerEnergy ≠ 0) ∧ (State.reset.readiness.computed .empty (some conf)).estimate = none ∧
    [(-40 : Int), -16, -15, -1, 0, 55, 56, 70].map (fun t => ((cold t).computed .empty (some conf)).offerPower) =
      [0, 0, 50, 50, 100, 100, 0, 0] ∧ stopCause ≠ .empty ∧ conf.stageRating ≤ 150 := by decide +kernel

theorem witness_DeviationCount :
    deviates 53 50 = false ∧ deviates 55 50 = false ∧ deviates 56 50 = true ∧ deviates 3 0 = false ∧ deviates 4 0 = true ∧
    deviationStep 2 false true = (0, true) ∧ deviationStep 1 true false = (2, true) ∧
    { member.readiness with deviationFlag := true, reading := some { held with measured := 60 } }.deviationFlag = true := by
  decide +kernel

theorem witness_CausesMoveTheState : stopCause ≠ member.control.causes ∧ stopCause ≠ .empty := by decide +kernel

theorem witness_PlugChanges :
    member.running = true ∧ member.inputs.plug = true ∧ member.control.state = .member ∧ State.reset.inputs.plug = false ∧
    { station .holding stopCause with inputs := State.reset.inputs }.inputs.plug = false ∧
    (station .faulted .empty).control.state = .faulted := by decide +kernel

theorem witness_StopChanges :
    member.running = true ∧ member.inputs.stop = false ∧ member.control.state = .member ∧
    { station .holding stopCause with inputs := { State.reset.inputs with stop := true } }.inputs.stop = true ∧
    (station .faulted .empty).control.state = .faulted ∧ State.reset.control.state = .offline := by decide +kernel

theorem witness_ReadingsLapse :
    member.running = true ∧ member.readiness.reading = some held ∧ member.control.configuration = some conf ∧
    member.readiness.lapseReported = false ∧ conf.lapseTime * 1000000 < min 65535000000 (held.age + 10000001) ∧
    ¬(conf.lapseTime * 1000000 < min 65535000000 (held.age + 10000000)) := by decide +kernel

theorem witness_GridAndStagePeriod :
    member.running = true ∧ member.setpoint.periodStart = none ∧ (inPeriod 2499001).setpoint.periodStart = some 2499001 ∧
    ((inPeriod 2499001).advance 0).now < 2499001 + 1000 ∧
    (2499001 : Instant) + 1000 * (1 : Nat) ≤ ((inPeriod 2499001).advance 1).now ∧
    ((inPeriod 2499001).advance 1000).now < (2499001 : Instant) + 1000 * ((1 : Nat) + 1) ∧
    (2499001 : Instant) + 1000 * (0 : Nat) ≤ (inPeriod 2499001).now ∧
    (inPeriod 2499001).now < (2499001 : Instant) + 1000 * ((0 : Nat) + 1) := by decide +kernel

theorem witness_WindowStepsAndNotices :
    let quiet : StepInput := { matched := false, previous := none, levels := ⟨false, false, false, false⟩, minute := 0 }
    let shown : StepInput := { quiet with matched := true }
    let winding (n : Nat) : OwnWindow := { OwnWindow.reset with state := .winding, windDown := n, base := 250, budget := 25 }
    OwnWindow.reset.state = .closed ∧ openCondition conf shown = true ∧ openCondition conf quiet = false ∧
    closeCondition conf quiet false = true ∧ closeCondition conf shown false = false ∧ closeCondition conf shown true = true ∧
    1 ≤ conf.windDown ∧
    ((winding 1).state = .winding ∧ (winding 1).windDown ≤ 1 ∧ stepWindow conf quiet (winding 1) = OwnWindow.reset) ∧
    (1 < (winding 2).windDown ∧ (stepWindow conf quiet (winding 2)).budget = 25) ∧
    ((winding 1).exhausted = false ∧ (stepWindow conf shown (winding 1)).state = .opened) := by decide +kernel

/-- 05, A Ranked Window at Station 3: G0 and G1 cared, entries 400 and 250, limit 300. -/
def ranked : Configuration :=
  { conf with
    depotLimit := 300, mode := .ranked, levels := ⟨400, 250, 0, 0⟩, clockEnabled := true, clockStart := 960, clockEnd := 1260
    grid := ⟨⟨true, .levelHigh⟩, ⟨true, .levelHigh⟩, ⟨false, .levelHigh⟩, ⟨false, .levelHigh⟩⟩ }

/-- The conditions of the window's steps, each way: the held target follows the first line that shows and stays where
none does; the clock window with its ends, and wrapped round midnight. -/
theorem witness_window_conditions :
    let at_ (g0 g1 : Bool) (minute : Nat) : StepInput :=
      { matched := g0 || g1, previous := none, levels := ⟨g0, g1, false, false⟩, minute := minute }
    let night : Configuration := { ranked with clockStart := 1380, clockEnd := 60 }
    (heldTargetStep ranked (at_ true true 1030) 7 = 400 ∧ heldTargetStep ranked (at_ false true 1030) 7 = 250 ∧
      heldTargetStep ranked (at_ false false 1030) 7 = 7 ∧ heldTargetStep ranked (at_ true true 959) 7 = 7 ∧
      heldTargetStep ranked { at_ false false 1030 with matched := true } 7 = 7) ∧
    (stepWindow ranked (at_ true true 1030) { OwnWindow.reset with state := .opened, maxDuration := 9, budget := 250 }).budget = 300 ∧
    [959, 960, 1259, 1260].map (insideClock ranked) = [false, true, true, false] ∧
    [1379, 1380, 0, 59, 60].map (insideClock night) = [false, true, true, true, false] ∧
    patternMatch ranked none ⟨false, true, false, false⟩ = true ∧ patternMatch { ranked with mode := .all } none ⟨false, true, false, false⟩ = false ∧
    patternMatch { ranked with mode := .all } none ⟨true, true, false, false⟩ = true ∧
    lineMatches .rising none true = false ∧ lineMatches .rising (some false) true = true ∧ lineMatches .either (some true) true = false := by
  decide +kernel

/-- Each clause on the window notices, at a change of state, of sequence, of budget, and of none of them. -/
theorem witness_window_notices :
    let opened : SignalPart := ⟨.opened, 15, 250⟩
    let closed : SignalPart := ⟨.closed, 15, 0⟩
    windowNotices closed closed = [] ∧ windowNotices opened closed = [numbered .windowClosed 15] ∧
    windowNotices closed opened = [numbered .windowOpened 15] ∧ windowNotices opened ⟨.winding, 0, 250⟩ = [numbered .windowOpened 0] ∧
    windowNotices opened ⟨.opened, 15, 300⟩ = [numbered .targetChanged 300] ∧ windowNotices opened opened = [] ∧
    windowNotices opened ⟨.winding, 15, 225⟩ = [] := by decide +kernel

/-! ### A state that meets every invariant, with a command waiting -/

/-- `member` with a STOP to come. -/
def ready : State := { member with pending := [.stopActive 5] }

theorem conf_inRange : conf.inRange := by unfold Configuration.inRange; decide +kernel

theorem ready_steps : ∃ t, step ready = .next t := ⟨_, rfl⟩

theorem ready_stationWf : StationWf ready :=
  ⟨fun h => absurd h (by decide +kernel),
    fun _ => ⟨⟨5, rfl, by decide⟩, by decide +kernel, ⟨conf, rfl, conf_inRange⟩, by decide +kernel, by decide +kernel, by decide +kernel⟩,
    by decide +kernel⟩

theorem ready_causesFollow : CausesFollow ready := by unfold CausesFollow; decide +kernel

theorem ready_exportSafe : ExportSafe ready := by unfold ExportSafe; decide +kernel

theorem ready_linkConsistent : LinkConsistent ready :=
  ⟨by decide +kernel, by decide +kernel, by decide +kernel, by decide +kernel, by decide +kernel,
    fun r h => absurd (show none = some r from h) (by simp)⟩

theorem ready_noticeQueueWf : NoticeQueueWf ready :=
  ⟨by decide +kernel, fun e h => absurd (show e ∈ ([] : List NoticeEntry) from h) (by simp),
    fun _ _ e h => absurd (show e ∈ ([] : List NoticeEntry) from h) (by simp), by decide +kernel⟩

theorem reset_entry_wf : PeerEntry.reset.wf :=
  ⟨fun _ => rfl, by decide, rfl, by decide, fun _ h => absurd h (by simp [PeerEntry.reset]), fun _ h => absurd h (by simp [PeerEntry.reset]),
    fun _ h => absurd h (by simp [PeerEntry.reset]), fun _ h => absurd h (by simp [PeerEntry.reset])⟩

theorem ready_peerTableWf : PeerTableWf ready :=
  ⟨by decide +kernel, fun e h => (List.mem_replicate.mp (show e ∈ List.replicate 32 PeerEntry.reset from h)).2 ▸ reset_entry_wf,
    fun n h => by cases (show some 5 = some n from h); decide +kernel, fun h => absurd h (by decide +kernel)⟩

theorem ready_censusBound : CensusBound ready := by unfold CensusBound; decide +kernel

theorem ready_ratingBound : RatingBound ready :=
  ⟨by decide +kernel, fun o h => absurd (show none = some o from h) (by simp),
    fun a f h => absurd (show Transmitter.silent = .sending a f from h) (by simp),
    fun a f h => absurd (show Transmitter.silent = .waiting a f from h) (by simp),
    fun v h => absurd (show none = some v from h) (by simp), by decide +kernel⟩

theorem witness_StepsKeepExportSafe : StationWf ready ∧ CausesFollow ready ∧ ExportSafe ready ∧ ∃ t, step ready = .next t :=
  ⟨ready_stationWf, ready_causesFollow, ready_exportSafe, ready_steps⟩

theorem witness_StepsKeepTheLink : StationWf ready ∧ LinkConsistent ready ∧ ∃ t, step ready = .next t :=
  ⟨ready_stationWf, ready_linkConsistent, ready_steps⟩

theorem witness_StepsKeepTheQueue : StationWf ready ∧ PeerTableWf ready ∧ NoticeQueueWf ready ∧ ∃ t, step ready = .next t :=
  ⟨ready_stationWf, ready_peerTableWf, ready_noticeQueueWf, ready_steps⟩

theorem witness_StepsKeepThePeerTable : StationWf ready ∧ PeerTableWf ready ∧ CensusBound ready ∧ ∃ t, step ready = .next t :=
  ⟨ready_stationWf, ready_peerTableWf, ready_censusBound, ready_steps⟩

theorem witness_StepsKeepTheRatingBound : StationWf ready ∧ ExportSafe ready ∧ RatingBound ready ∧ ∃ t, step ready = .next t :=
  ⟨ready_stationWf, ready_exportSafe, ready_ratingBound, ready_steps⟩

end Sys2Proof.Tests
end

section
/-! Power-on: the values the specification gives, and the invariants at reset (O4, O55). -/

namespace Sys2Proof.Machine

/-! ### The reset state -/

/-- Every entry of the Peer Table is the entry never heard, whatever number is asked. -/
theorem State.reset_entry (k : Nat) : State.reset.peers.entry k = PeerEntry.reset := by
  show (List.replicate 32 PeerEntry.reset).getD k PeerEntry.reset = _
  rw [List.getD_eq_getElem?_getD, List.getElem?_replicate]
  split <;> rfl

theorem State.eq_reset_of_mem_entries {e : PeerEntry} (h : e ∈ State.reset.peers.entries) : e = PeerEntry.reset :=
  (List.mem_replicate.mp h).2

theorem PeerEntry.reset_wf : PeerEntry.reset.wf := by
  unfold PeerEntry.wf PeerEntry.reset
  simp

theorem State.reset_stationWf : StationWf State.reset :=
  ⟨fun _ => by and_intros <;> rfl, fun h => absurd rfl h, by decide⟩

theorem State.reset_causesFollow : CausesFollow State.reset := by
  unfold CausesFollow; decide

theorem State.reset_exportSafe : ExportSafe State.reset := by
  unfold ExportSafe; decide

theorem State.reset_linkConsistent : LinkConsistent State.reset :=
  ⟨rfl, rfl, by decide, by decide, by decide, fun _ h => nomatch (show none = some _ from h)⟩

theorem State.reset_noticeQueueWf : NoticeQueueWf State.reset :=
  ⟨List.nodup_nil, fun _ h => absurd h List.not_mem_nil, fun _ _ _ h => absurd h List.not_mem_nil, Nat.zero_le _⟩

theorem State.reset_peerTableWf : PeerTableWf State.reset :=
  ⟨rfl, fun _ h => State.eq_reset_of_mem_entries h ▸ PeerEntry.reset_wf, fun n _ => State.reset_entry n,
    fun _ _ h => State.eq_reset_of_mem_entries h⟩

theorem State.reset_censusBound : CensusBound State.reset := by
  unfold CensusBound; decide

theorem State.reset_ratingBound : RatingBound State.reset := by
  unfold RatingBound
  simp [State.reset, ReadinessUnit.reset, GrantEngine.reset, LineInterface.reset]

/-- Settles O4: each block's values are those of `State.reset`; the 32 peer entries are one entry 32 times. -/
theorem resetHoldsTheStatedValues : Obligations.ResetHoldsTheStatedValues := by
  unfold Obligations.ResetHoldsTheStatedValues
  refine ⟨?line, ?timer, ?control, ⟨rfl, fun k _ => ?entry, ?sets⟩, rfl, ?window, ?readiness, ?grant, ?setpoint, ?link,
    rfl⟩
  case entry => rw [State.reset_entry k]; and_intros <;> rfl
  all_goals and_intros <;> rfl

/-- Settles O55, invariant by invariant. -/
theorem resetSatisfiesTheInvariants : Obligations.ResetSatisfiesTheInvariants :=
  ⟨State.reset_stationWf, State.reset_causesFollow, State.reset_exportSafe, State.reset_linkConsistent,
    State.reset_noticeQueueWf, State.reset_peerTableWf, State.reset_censusBound, State.reset_ratingBound⟩

end Sys2Proof.Machine
end

section
/-! The transmitter: what becomes of an own frame or mark (R10 to R12, R20, R27, R28, R39; O33 to O35). -/

namespace Sys2Proof.Machine

/-! ### The ends of own transmissions -/

/-- A frame's end instant, in the characters it is sent as (R1, R4). -/
theorem after_duration (start : Instant) (f : Frame) :
    after start f.duration = start + (((6250 * f.chars.length + 6) / 12 : Nat) : Int) := by
  rw [after, Frame.duration_eq]

theorem after_startLimit (opening : Instant) : after opening Config.startLimit = opening + 5000 := rfl

/-- A frame stopped before its end ends now. -/
theorem LineInterface.stopped_before_end {l : LineInterface} {start : Instant} {f : Frame} {now : Instant}
    (h : l.transmitter = .sending start f) (hn : now ≤ after start f.duration) :
    l.stopped now = { l with transmitter := .silent, ownUntil := some now } := by
  rw [LineInterface.stopped_sending h, Int.min_eq_left hn]

/-- A frame stopped after its end ended at its end. -/
theorem LineInterface.stopped_after_end {l : LineInterface} {start : Instant} {f : Frame} {now : Instant}
    (h : l.transmitter = .sending start f) (he : after start f.duration ≤ now) :
    l.stopped now = { l with transmitter := .silent, ownUntil := some (after start f.duration) } := by
  rw [LineInterface.stopped_sending h, Int.min_eq_right he]

/-! ### Each command, by what the transmitter does -/

section
variable {dt : Nat} {s : State}

theorem exec_frameSent_sending (hr : s.running = true) {start : Instant} {f : Frame}
    (h : s.line.transmitter = .sending start f) :
    exec (.frameSent dt) s =
      .next (State.settle
        (if after start f.duration ≤ (s.advance dt).now then (s.advance dt).outcomeSent f else s.advance dt)) := by
  show execFrameSent dt s = _
  simp [execFrameSent, happens_running hr, h]

theorem exec_frameSent_other (hr : s.running = true) (h : ∀ start f, s.line.transmitter ≠ .sending start f) :
    exec (.frameSent dt) s = .next (s.advance dt).settle := by
  show execFrameSent dt s = _
  cases ht : s.line.transmitter with
  | sending start f => exact absurd ht (h start f)
  | silent | waiting opening f | mark start => simp [execFrameSent, happens_running hr, ht]

theorem exec_readbackMismatch_sending {gf : Bool} (hr : s.running = true) {start : Instant} {f : Frame}
    (h : s.line.transmitter = .sending start f) :
    exec (.readbackMismatch dt gf) s =
      .next (State.settle
        (if (s.advance dt).now < after start f.duration then (s.advance dt).outcomeCut f gf else s.advance dt)) := by
  show execReadbackMismatch dt gf s = _
  simp [execReadbackMismatch, happens_running hr, h]

theorem exec_readbackMismatch_mark {gf : Bool} (hr : s.running = true) {start : Instant}
    (h : s.line.transmitter = .mark start) :
    exec (.readbackMismatch dt gf) s =
      .next (State.settle { s.advance dt with line := s.line.stopped (s.advance dt).now }) := by
  show execReadbackMismatch dt gf s = _
  simp [execReadbackMismatch, happens_running hr, h]

theorem exec_readbackMismatch_unsent {gf : Bool} (hr : s.running = true)
    (h : s.line.transmitter = .silent ∨ ∃ opening f, s.line.transmitter = .waiting opening f) :
    exec (.readbackMismatch dt gf) s = .next (s.advance dt).settle := by
  show execReadbackMismatch dt gf s = _
  obtain ht | ⟨opening, f, ht⟩ := h <;> simp [execReadbackMismatch, happens_running hr, ht]

theorem exec_frameStartDeferred_waiting (hr : s.running = true) {opening : Instant} {f : Frame}
    (h : s.line.transmitter = .waiting opening f) :
    exec (.frameStartDeferred dt) s =
      .next (State.settle
        (if (s.advance dt).now ≤ after opening Config.startLimit then
          { s.advance dt with line := { s.line with transmitter := .sending (s.advance dt).now f } }
         else s.advance dt)) := by
  show execFrameStartDeferred dt s = _
  simp [execFrameStartDeferred, happens_running hr, h]

theorem exec_slotStartDeadline_waiting (hr : s.running = true) {opening : Instant} {f : Frame}
    (h : s.line.transmitter = .waiting opening f) :
    exec (.slotStartDeadline dt) s =
      .next (State.settle
        (if after opening Config.startLimit ≤ (s.advance dt).now then
          State.leaveNotSent f { s.advance dt with line := { s.line with transmitter := .silent } }
         else s.advance dt)) := by
  show execSlotStartDeadline dt s = _
  simp [execSlotStartDeadline, happens_running hr, h]

theorem exec_slot_not_waiting (hr : s.running = true) (h : ∀ opening f, s.line.transmitter ≠ .waiting opening f) :
    exec (.frameStartDeferred dt) s = .next (s.advance dt).settle ∧
    exec (.slotStartDeadline dt) s = .next (s.advance dt).settle := by
  show execFrameStartDeferred dt s = _ ∧ execSlotStartDeadline dt s = _
  cases ht : s.line.transmitter with
  | waiting opening f => exact absurd ht (h opening f)
  | silent | sending start f | mark start =>
    simp [execFrameStartDeferred, execSlotStartDeadline, happens_running hr, ht]

theorem exec_lineIdleAfterStart_awaiting (hr : s.running = true) (h : s.line.receiver = .awaitingIdle) :
    exec (.lineIdleAfterStart dt) s =
      .next (State.settle { s.advance dt with line := { s.line with receiver := .on (s.advance dt).now } }) := by
  show execLineIdleAfterStart dt s = _
  simp [execLineIdleAfterStart, happens_running hr, State.lineWentIdle, h]

theorem exec_lineIdleAfterStart_other (hr : s.running = true) (h : s.line.receiver ≠ .awaitingIdle) :
    exec (.lineIdleAfterStart dt) s = .next (s.advance dt).settle := by
  show execLineIdleAfterStart dt s = _
  cases ht : s.line.receiver with
  | awaitingIdle => exact absurd ht h
  | off | on since => simp [execLineIdleAfterStart, happens_running hr, State.lineWentIdle, ht]

end

/-! ### A frame not sent -/

/-- R39, with IRQ settled: a LEAVE frame's third attempt ends the LEAVE, any other frame changes the line alone. -/
theorem State.leaveNotSent_settled {m : State} (hr : m.running = true) {c : StationControl} (hc : m.control = c)
    (f : Frame) (l : LineInterface) :
    ((f.core.state = .leaving ∧ c.state = .leaving ∧ 3 ≤ c.leaveAttempts) →
      (State.leaveNotSent f { m with line := l }).settle = LeftTheLine m false) ∧
    (¬(f.core.state = .leaving ∧ c.state = .leaving ∧ 3 ≤ c.leaveAttempts) →
      (State.leaveNotSent f { m with line := l }).settle = State.settle { m with line := l }) := by
  subst hc
  rw [State.leaveNotSent_eq]
  constructor
  · intro h
    rw [if_pos h]
    exact State.leaveCompletes_settled m _ hr false rfl rfl rfl rfl rfl rfl rfl
  · exact fun h => by rw [if_neg h]

/-- Settles O35: the branch of each command by the transmitter, and the 5 ms by a comparison of instants. -/
theorem waitingFramesStartOrAreBlocked : Obligations.WaitingFramesStartOrAreBlocked := by
  unfold Obligations.WaitingFramesStartOrAreBlocked
  intro dt s hr m
  have hm : m.running = true := by rw [State.running_advance]; exact hr
  have mc : m.control = s.control := by simp [m]
  refine ⟨fun opening f h => ⟨?starts, ?late, ?early, ?blocked⟩, exec_slot_not_waiting hr,
    exec_lineIdleAfterStart_awaiting hr, exec_lineIdleAfterStart_other hr⟩
  case starts =>
    intro hn
    rw [exec_frameStartDeferred_waiting hr h, after_startLimit, if_pos hn]
  case late =>
    intro hn
    rw [exec_frameStartDeferred_waiting hr h, after_startLimit, if_neg (Int.not_le.mpr hn)]
  case early =>
    intro hn
    rw [exec_slotStartDeadline_waiting hr h, after_startLimit, if_neg (Int.not_le.mpr hn)]
  case blocked =>
    intro hn
    rw [exec_slotStartDeadline_waiting hr h, after_startLimit, if_pos hn]
    obtain ⟨leaves, stays⟩ := State.leaveNotSent_settled hm mc f { s.line with transmitter := .silent }
    exact ⟨fun hl => congrArg _ (leaves hl), fun hl => congrArg _ (stays hl)⟩

/-! ### A frame cut (R11, R12, R28) -/

/-- The line a cut frame leaves: silent, its activity over now, and the failure count given. -/
def LineInterface.cutAt (l : LineInterface) (now : Instant) (failures : Nat) : LineInterface :=
  { l with transmitter := .silent, ownUntil := some now, readbackFailures := failures }

theorem State.outcomeCut_eq {m : State} {start : Instant} {f : Frame} (gf : Bool)
    (h : m.line.transmitter = .sending start f) (hn : m.now < after start f.duration) :
    m.outcomeCut f gf =
      let failures := min 3 (m.line.readbackFailures + 1)
      let t : State := { m with line := m.line.cutAt m.now failures }
      if failures = 3 ∧ m.control.state.watches = true then t.enterFaulted .readback gf else t.leaveNotSent f := by
  unfold State.outcomeCut
  rw [LineInterface.stopped_before_end h (Int.le_of_lt hn)]
  rfl

/-- A third failure in a row at a watching station is a duplicate number (R28). -/
theorem State.outcomeCut_faults {m : State} (hr : m.running = true) {start : Instant} {f : Frame} (gf : Bool)
    (h : m.line.transmitter = .sending start f) (hn : m.now < after start f.duration)
    (h2 : m.line.readbackFailures = 2) (hw : m.control.state.watches = true) :
    EntersFaulted m (m.outcomeCut f gf).settle .readback gf (m.line.cutAt m.now 3) := by
  rw [State.outcomeCut_eq gf h hn, h2, if_pos ⟨rfl, hw⟩]
  exact State.enterFaulted_enters { m with line := m.line.cutAt m.now 3 } hr .readback gf

/-- A first or second failure in a row is counted, and the frame was not sent (R12, R39). -/
theorem State.outcomeCut_counts {m : State} {start : Instant} {f : Frame} (gf : Bool)
    (h : m.line.transmitter = .sending start f) (hn : m.now < after start f.duration)
    (h2 : m.line.readbackFailures < 2) :
    m.outcomeCut f gf =
      State.leaveNotSent f { m with line := m.line.cutAt m.now (m.line.readbackFailures + 1) } := by
  have hf : min 3 (m.line.readbackFailures + 1) = m.line.readbackFailures + 1 := by omega
  rw [State.outcomeCut_eq gf h hn, hf, if_neg (by omega)]

/-- Settles O33: a mismatch by what is being sent; a cut frame by the failure count it makes. -/
theorem cutFramesCountToADuplicate : Obligations.CutFramesCountToADuplicate := by
  unfold Obligations.CutFramesCountToADuplicate
  intro dt gf s hr m line
  have hm : m.running = true := by rw [State.running_advance]; exact hr
  have ml : m.line = s.line := by simp [m]
  have mc : m.control = s.control := by simp [m]
  refine ⟨fun start f h he => ?runOut, fun start f h hn => ?cut, fun i h hn => ?markStops, fun i h he => ?markOver,
    exec_readbackMismatch_unsent hr⟩
  case runOut =>
    rw [← after_duration] at he
    rw [exec_readbackMismatch_sending hr h, if_neg (Int.not_lt.mpr he)]
  case cut =>
    rw [← after_duration] at hn
    rw [exec_readbackMismatch_sending hr h, if_pos hn]
    rw [← ml] at h
    constructor
    · intro h2 hw
      rw [← ml] at h2
      rw [← mc] at hw
      have faults := State.outcomeCut_faults hm gf h hn h2 hw
      rw [ml] at faults
      exact ⟨_, rfl, faults⟩
    · intro h2
      rw [← ml] at h2
      have counts := State.outcomeCut_counts gf h hn h2
      obtain ⟨leaves, stays⟩ := State.leaveNotSent_settled hm mc f (m.line.cutAt m.now (m.line.readbackFailures + 1))
      rw [← counts] at leaves stays
      rw [ml] at stays
      exact ⟨fun hl => congrArg _ (leaves hl), fun hl => congrArg _ (stays hl)⟩
  case markStops =>
    rw [exec_readbackMismatch_mark hr h, LineInterface.stopped_mark h, Int.min_eq_left (Int.le_of_lt hn)]
  case markOver =>
    rw [exec_readbackMismatch_mark hr h, LineInterface.stopped_mark h, Int.min_eq_right he]

/-! ### A frame sent (R10, R12, R37, R39, R120) -/

/-- What a frame sent in full leaves before its outcome: the line free since its end with no failure, and its offer in
the run's record. -/
def State.frameOut (m : State) (start : Instant) (f : Frame) : State :=
  { m with
    line :=
      { m.line with transmitter := .silent, ownUntil := some (after start f.duration), readbackFailures := 0 }
    grant := { m.grant with sentOffer := some ⟨f.core.offerPower, f.core.offerEnergy⟩ } }

theorem State.outcomeSent_eq {m : State} {start : Instant} {f : Frame}
    (h : m.line.transmitter = .sending start f) (he : after start f.duration ≤ m.now) :
    m.outcomeSent f =
      if f.core.state = .leaving ∧ m.control.state = .leaving then (m.frameOut start f).leaveCompletes true
      else (m.frameOut start f).withdrawalSent f := by
  unfold State.outcomeSent
  rw [LineInterface.stopped_after_end h he]
  simp only [State.isLeaveFrame, Bool.and_eq_true, decide_eq_true_eq]
  rfl

/-- The link with the request in flight, where there is one, completed OK. -/
def PostLink.completedOk (l : PostLink) : PostLink :=
  match l.request with
  | some r => l.answered r.kind .ok []
  | none => l

/-- The announcement of a withdrawal completes the AVAIL in flight (R37, R164). -/
theorem State.withdrawalSent_completes {f : Frame} {m : State}
    (h : m.control.withdrawalPending = true ∧ m.control.announcementBuilt = true ∧ f.core.causes.withdrawn = true) :
    m.withdrawalSent f =
      { m with
        control := { m.control with withdrawalPending := false }
        link := m.link.completedOk } := by
  unfold State.withdrawalSent
  rw [if_pos (by simpa [and_assoc] using h)]
  unfold State.completeInFlight PostLink.completedOk
  cases m.link.request <;> rfl

/-- Settles O34: a sent frame is a LEAVE frame, an announcement, or neither. -/
theorem sentFramesComplete : Obligations.SentFramesComplete := by
  unfold Obligations.SentFramesComplete
  intro dt s hr m
  have hm : m.running = true := by rw [State.running_advance]; exact hr
  have ml : m.line = s.line := by simp [m]
  have mc : m.control = s.control := by simp [m]
  have mg : m.grant = s.grant := by simp [m]
  have mk : m.link = s.link := by simp [m]
  refine ⟨fun start f h hn => ?early, ?sent, exec_frameSent_other hr⟩
  case early =>
    rw [← after_duration] at hn
    rw [exec_frameSent_sending hr h, if_neg (Int.not_le.mpr hn)]
  case sent =>
    intro start f h e he
    have hend : after start f.duration = e := after_duration start f
    rw [← hend] at he
    have out := State.outcomeSent_eq (by rw [ml]; exact h) he
    rw [exec_frameSent_sending hr h, if_pos he, out]
    intro sent leaves announces
    have hsent : m.frameOut start f = sent := by
      unfold State.frameOut
      rw [hend, ml, mg]
    refine ⟨fun hl => ?leaves, fun hl ha => ?announced, fun hl ha => ?other⟩
    case leaves =>
      rw [if_pos (by rw [mc]; exact hl)]
      exact congrArg _ (State.leaveCompletes_settled m _ hm true rfl rfl rfl rfl rfl rfl rfl)
    case announced =>
      have ha' : m.control.withdrawalPending = true ∧ m.control.announcementBuilt = true ∧
          f.core.causes.withdrawn = true := by rw [mc]; exact ha
      rw [if_neg (by rw [mc]; exact hl), hsent, State.withdrawalSent_completes (m := sent) ha']
      show Host.Outcome.next (State.settle
        { sent with control := { m.control with withdrawalPending := false }, link := m.link.completedOk }) = _
      rw [mc, mk]
      rfl
    case other =>
      have ha' : ¬(m.control.withdrawalPending = true ∧ m.control.announcementBuilt = true ∧
          f.core.causes.withdrawn = true) := by rw [mc]; exact ha
      rw [if_neg (by rw [mc]; exact hl), hsent, State.withdrawalSent_waits (s := sent) ha']

end Sys2Proof.Machine
end

section
/-! What is heard on the depot line (R1, R2, R7 to R9, R15 to R18, R27; O25, O27, O28, O32). -/

namespace Sys2Proof.Machine

/-! ### Small facts -/

/-- The watching states, by name (R31). -/
theorem StationState.watches_iff (st : StationState) :
    st.watches = true ↔ st = .joining ∨ st = .member ∨ st = .holding ∨ st = .leaving := by
  cases st <;> simp [StationState.watches]

/-- The states with allocation runs, by name (R22). -/
theorem StationState.runs_iff (st : StationState) :
    st.runs = true ↔ st = .joining ∨ st = .member ∨ st = .holding := by
  cases st <;> simp [StationState.runs]

theorem after_slotOpening (a : Instant) (k : Nat) :
    after a (Config.slotOpening k) = a + 1000 * (40 + 50 * (k : Int)) := by
  simp [after, Config.slotOpening, Config.ms]

/-- The anchor a frame of station k implies by its start (R17). -/
theorem sub_slotOpening (start : Instant) (k : Nat) :
    start - (Config.slotOpening k : Int) = start - 1000 * (40 + 50 * (k : Int)) := by
  simp [Config.slotOpening, Config.ms]

/-- What an own transmission's span says, transmitter by transmitter (R1). -/
theorem Transmitter.forall_span {t : Transmitter} {P : Instant → Instant → Prop} :
    (∀ a b, t.span = some (a, b) → P a b) ↔
      (∀ own f, t = .sending own f → P own (own + (((6250 * f.chars.length + 6) / 12 : Nat) : Int))) ∧
      ∀ own, t = .mark own → P own (own + 1563) := by
  cases t with
  | silent | waiting opening f => simp [Transmitter.span]
  | sending start f =>
    simp only [← after_duration]
    simp [Transmitter.span]
  | mark start =>
    have hd : after start Config.markDuration = start + 1563 := rfl
    simp [Transmitter.span, hd]

/-! ### A transmission's end -/

section
variable {dt : Nat} {r : Reception} {gf : Bool} {s : State}

/-- What is not received has no effect (R2). -/
theorem exec_transmissionEnd_missed (hr : s.running = true)
    (h : s.line.receives ((s.advance dt).now - (r.lasted : Int)) (s.advance dt).now = false) :
    exec (.transmissionEnd dt r gf) s = .next (s.advance dt).settle := by
  show execTransmissionEnd dt r gf s = _
  simp [execTransmissionEnd, happens_running hr, State.transmissionEnds, h]

/-- What is received is treated by its class (R2). -/
theorem exec_transmissionEnd_heard (hr : s.running = true)
    (h : s.line.receives ((s.advance dt).now - (r.lasted : Int)) (s.advance dt).now = true) :
    exec (.transmissionEnd dt r gf) s =
      .next ((s.advance dt).hear r ((s.advance dt).now - (r.lasted : Int)) gf).settle := by
  show execTransmissionEnd dt r gf s = _
  simp [execTransmissionEnd, happens_running hr, State.transmissionEnds, h]

end

section
variable {r : Reception} {start : Instant} {gf : Bool} {m : State}

theorem State.hear_fragment (h : classify r = .fragment) : m.hear r start gf = m := by
  simp [State.hear, h]

theorem State.hear_corrupt (h : classify r = .corrupt) : m.hear r start gf = m.countCorrupt := by
  simp [State.hear, h]

theorem State.hear_mark (h : classify r = .mark) : m.hear r start gf = m.heardMark start := by
  simp [State.hear, h]

theorem State.hear_badFrame {cs : List Byte} (h : classify r = .candidate cs) (hf : readFrame cs = none) :
    m.hear r start gf = m.countCorrupt := by
  simp [State.hear, h, hf]

theorem State.hear_frame {cs : List Byte} {f : Frame} (h : classify r = .candidate cs)
    (hf : readFrame cs = some f) : m.hear r start gf = m.deliver f start gf := by
  simp [State.hear, h, hf]

/-- A mark at a fixed station, less than 1,900 ms after the anchor, is stray; another opens a round (R15). -/
theorem State.heardMark_fixed {a : Instant} (ha : m.timer.anchor = some a) (hf : m.timer.fixed = true) :
    m.heardMark start = if a + 1900000 ≤ start then m.openRound start else m.countCorrupt := by
  unfold State.heardMark
  rw [ha, hf]
  rfl

/-- A mark at an unfixed station is the first fix, whatever its instant (R16, R133). -/
theorem State.heardMark_unfixed {a : Instant} (ha : m.timer.anchor = some a) (hf : m.timer.fixed = false) :
    m.heardMark start =
      State.openRound start { m.abortRun with timer := { m.abortRun.timer with fixed := true } } := by
  simp [State.heardMark, ha, hf]

theorem State.deliver_peer {f : Frame} (h : m.control.number ≠ some f.station) :
    m.deliver f start gf = m.deliverPeer f start := if_neg fun e => h e.symm

theorem State.deliver_own {f : Frame} (h : m.control.number = some f.station) :
    m.deliver f start gf = m.duplicateHeard gf := if_pos h.symm

end

/-- The corrupt count after time has passed, with the line written as it was found. -/
theorem State.countCorrupt_advance (dt : Nat) (s : State) :
    (s.advance dt).countCorrupt =
      { s.advance dt with line := { s.line with corrupt := min 255 (s.line.corrupt + 1) } } := by
  have h : (s.advance dt).line = s.line := by simp
  unfold State.countCorrupt
  rw [h]

/-- Settles O27: the receiver's three conditions, then the class. -/
theorem unusableTransmissionsAreCounted : Obligations.UnusableTransmissionsAreCounted := by
  unfold Obligations.UnusableTransmissionsAreCounted
  intro dt r gf s hr m start counted
  have hcount : m.countCorrupt = counted := State.countCorrupt_advance dt s
  have ht : m.timer = s.timer := by simp [m]
  refine ⟨?received, exec_transmissionEnd_missed hr, fun h => ?_⟩
  case received =>
    rw [LineInterface.receives_iff, Transmitter.forall_span, and_assoc]
  rw [exec_transmissionEnd_heard hr h]
  refine ⟨fun hc => ?fragment, fun hc => ?corrupt, fun hc hf => ?badFrame, fun a hc ha hfix hstray => ?stray⟩
  case fragment => rw [State.hear_fragment hc]
  case corrupt => rw [State.hear_corrupt hc, hcount]
  case badFrame => rw [State.hear_badFrame hc hf, hcount]
  case stray =>
    rw [← ht] at ha hfix
    rw [State.hear_mark hc, State.heardMark_fixed ha hfix, if_neg (Int.not_le.mpr hstray), hcount]

/-- Settles O28: a mark at a fixed station from 1,900 ms on, and at an unfixed one at any time. -/
theorem honouredMarksOpenARound : Obligations.HonouredMarksOpenARound := by
  unfold Obligations.HonouredMarksOpenARound
  intro dt r gf s a hr ha m start h hc
  have ht : m.timer = s.timer := by simp [m]
  rw [← ht] at ha
  rw [exec_transmissionEnd_heard hr h, State.hear_mark hc, ← ht]
  constructor
  · intro hfix hguard
    rw [State.heardMark_fixed ha hfix, if_pos hguard]
  · intro hfix
    rw [State.heardMark_unfixed ha hfix]

/-! ### A good peer frame (R8, R17, R18) -/

/-- An abort leaves the events still to be raised as they were. -/
theorem State.abortRun_slotPending (m : State) : m.abortRun.timer.slotPending = m.timer.slotPending := by
  unfold State.abortRun
  split <;> simp

/-- R17: in step, near enough or unfixed, or out of step. -/
theorem State.deliverPeer_eq {m : State} {a : Instant} (f : Frame) (start : Instant) (ha : m.timer.anchor = some a) :
    m.deliverPeer f start =
      let implied := start - 1000 * (40 + 50 * (f.station : Int))
      let size := (implied - a).natAbs
      if size ≤ 8000 then (m.storeFrame f).judgeClock f
      else if m.timer.fixed = false ∨ size < 200000 then ((m.reanchor implied).storeFrame f).judgeClock f
      else m.countCorrupt.storeFrame f := by
  unfold State.deliverPeer
  rw [ha]
  simp only [sub_slotOpening]
  rfl

/-- Settles O25: R17's three cases by the size of the difference. -/
theorem peerFramesMoveTheAnchor : Obligations.PeerFramesMoveTheAnchor := by
  unfold Obligations.PeerFramesMoveTheAnchor
  intro dt r gf s a f hr ha m start implied h hc hf hn
  have ht : m.timer = s.timer := by simp [m]
  have mc : m.control = s.control := by simp [m]
  rw [← ht] at ha
  rw [← mc] at hn
  rw [exec_transmissionEnd_heard hr h, State.hear_frame hc hf, State.deliver_peer hn, State.deliverPeer_eq f start ha]
  refine ⟨fun hstep => ?inStep, fun hout hnear => ⟨?moves, ?timer, rfl⟩, fun hout hfix => ?outOfStep⟩
  case inStep => rw [if_pos hstep]
  case moves =>
    rw [← ht] at hnear
    rw [if_neg (Nat.not_le.mpr hout), if_pos hnear]
  case timer =>
    rw [← mc, ← ht, ← State.abortRun_slotPending, ← after_slotOpening]
    rfl
  case outOfStep =>
    have hfar : ¬(m.timer.fixed = false ∨ (implied - a).natAbs < 200000) := by
      rw [ht, hfix]
      simpa using hout
    rw [if_neg (by omega), if_neg hfar, State.countCorrupt_advance]

/-! ### The own number heard (R27) -/

/-- What stopping does, transmitter by transmitter (R11, R20). -/
theorem LineInterface.frameStopped_silent {l : LineInterface} (h : l.transmitter = .silent) (now : Instant) :
    l.frameStopped now = l := by
  simp [LineInterface.frameStopped, h]

theorem LineInterface.frameStopped_mark {l : LineInterface} {start : Instant} (h : l.transmitter = .mark start)
    (now : Instant) : l.frameStopped now = l := by
  simp [LineInterface.frameStopped, h]

theorem LineInterface.frameStopped_waiting {l : LineInterface} {opening : Instant} {f : Frame}
    (h : l.transmitter = .waiting opening f) (now : Instant) : l.frameStopped now = l.stopped now := by
  simp [LineInterface.frameStopped, h]

theorem LineInterface.frameStopped_sending {l : LineInterface} {start : Instant} {f : Frame}
    (h : l.transmitter = .sending start f) (now : Instant) : l.frameStopped now = l.stopped now := by
  simp [LineInterface.frameStopped, h]

/-- Settles O32: what stops, transmitter by transmitter; then the duplicate by the station state. -/
theorem ownNumberHeardIsADuplicate : Obligations.OwnNumberHeardIsADuplicate := by
  unfold Obligations.OwnNumberHeardIsADuplicate
  constructor
  · intro l now ended
    refine ⟨fun h => ⟨LineInterface.stopped_silent h now, LineInterface.frameStopped_silent h now⟩,
      fun opening f h => ⟨LineInterface.stopped_waiting h now, LineInterface.frameStopped_waiting h now⟩,
      fun start f h => ⟨?_, LineInterface.frameStopped_sending h now⟩,
      fun start h => ⟨LineInterface.stopped_mark h now, LineInterface.frameStopped_mark h now⟩⟩
    rw [LineInterface.stopped_sending h, after_duration]
  · intro dt r gf s f hr m h hc hf hn
    have hm : m.running = true := by rw [State.running_advance]; exact hr
    have mc : m.control = s.control := by simp [m]
    have ml : m.line = s.line := by simp [m]
    rw [← mc] at hn
    rw [exec_transmissionEnd_heard hr h, State.hear_frame hc hf, State.deliver_own hn, ← StationState.watches_iff, ← mc]
    unfold State.duplicateHeard
    constructor
    · intro hw
      rw [if_pos hw, ← ml]
      exact ⟨_, rfl, State.enterFaulted_enters m hm .heard gf⟩
    · intro hfaulted
      rw [if_neg (by rw [hfaulted]; decide)]

end Sys2Proof.Machine
end

section
/-! The round: its openings, the round timer and the own slot (R10, R13, R14, R65 to R69, R81, R86, R135, R136;
O30, O31, O37). -/

namespace Sys2Proof.Machine

theorem State.advance_timer (dt : Nat) (s : State) : (s.advance dt).timer = s.timer := by simp

/-! ### The depot clock at an instant (R79) -/

/-- The clock figure at an instant, as the integer it is computed from. -/
theorem State.clockAt_eq (m : State) (t : Instant) :
    (m.clockAt t : Int) = ((m.window.clock : Int) - (m.now - t)) % 86400000000 :=
  Int.toNat_of_nonneg (Int.emod_nonneg _ (by decide))

theorem State.clockMinute_clockAt (m : State) (t : Instant) :
    clockMinute (m.clockAt t) = ((((m.window.clock : Int) - (m.now - t)) % 86400000000) / 60000000).toNat := by
  rw [← State.clockAt_eq]
  exact (Int.toNat_natCast _).symm

theorem State.clockSecond_clockAt (m : State) (t : Instant) :
    clockSecond (m.clockAt t) =
      ((((m.window.clock : Int) - (m.now - t)) % 86400000000) / 1000000 % 60).toNat := by
  rw [← State.clockAt_eq]
  exact (Int.toNat_natCast _).symm

/-! ### The window sample (R81, R86) -/

/-- The sample of a round at a station with the strap, in a state with allocation runs. -/
theorem State.windowSample_taken {m : State} {c : Configuration} (anchor : Instant)
    (hc : m.control.configuration = some c) (hs : m.control.signalStrap = some true)
    (hr : m.control.state.runs = true) :
    (m.windowSample anchor).window =
      { m.window with
        previous := m.window.current
        current := some ⟨m.inputs.grid, patternMatch c m.window.current m.inputs.grid⟩
        own :=
          if m.control.state.joined then
            stepWindow c
              { matched := patternMatch c m.window.current m.inputs.grid, previous := m.window.current
                levels := m.inputs.grid, minute := clockMinute (m.clockAt anchor) }
              m.window.own
          else m.window.own } := by
  unfold State.windowSample
  rw [hc]
  simp only []
  rw [if_pos ⟨hs, hr⟩]

/-- No sample without the strap, without a configuration, or in another state. -/
theorem State.windowSample_none {m : State} (anchor : Instant)
    (h : m.control.configuration = none ∨ m.control.signalStrap ≠ some true ∨ m.control.state.runs = false) :
    m.windowSample anchor = m := by
  unfold State.windowSample
  cases hc : m.control.configuration with
  | none => rfl
  | some c =>
    refine if_neg fun ⟨hs, hr⟩ => ?_
    simp [hc, hs, hr] at h

/-- The sample moves the Window Controller alone. -/
theorem State.windowSample_eq (m : State) (anchor : Instant) :
    m.windowSample anchor = { m with window := (m.windowSample anchor).window } := by
  unfold State.windowSample
  split
  · split <;> rfl
  · rfl

/-! ### A round opens (R14, R135, R136) -/

/-- The timer at a round opening, before the report of the round that ends. -/
def State.opened (anchor : Instant) (m : State) : State :=
  { m with
    timer :=
      { m.timer with
        anchor := some anchor
        roundCount := (m.timer.roundCount + 1) % 65536
        slotPending := true
        allocationPending := true } }

theorem State.openRound_eq (anchor : Instant) (m : State) :
    m.openRound anchor =
      let t := (m.opened anchor).reportRound
      State.windowSample anchor { t with timer := { t.timer with outcome := .noAllocation } } := rfl

/-- A missed run, by state and report (R135). -/
theorem State.missedRun_iff (m : State) :
    m.missedRun = true ↔
      (m.control.state = .joining ∨ m.control.state = .member ∨ m.control.state = .holding) ∧
      (m.timer.outcome = .noAllocation ∨ m.timer.outcome = .running ∨ m.timer.outcome = .aborted) := by
  unfold State.missedRun
  rw [Bool.and_eq_true, StationState.runs_iff]
  cases m.timer.outcome <;> simp

/-- No miss: nothing moves. -/
theorem State.reportRound_kept {m : State} (h : ¬m.missedRun = true) : m.reportRound = m := if_neg h

/-- A miss that is not the second in a row moves the count alone. -/
theorem State.reportRound_counted {m : State} (h : m.missedRun = true) (h1 : m.timer.runMisses ≠ 1) :
    m.reportRound = { m with timer := { m.timer with runMisses := min 2 (m.timer.runMisses + 1) } } := by
  unfold State.reportRound
  rw [if_pos h]
  exact if_neg (by omega)

/-- The second miss in a row zeroes the grant and the setpoint, with its notice (R136). -/
theorem State.reportRound_zeroed {m : State} (h : m.missedRun = true) (h1 : m.timer.runMisses = 1) :
    m.reportRound =
      { m with
        timer := { m.timer with runMisses := 2 }
        grant := { m.grant with ownGrant := 0 }
        setpoint := m.setpoint.at_ 0 m.control.configuration m.readiness
        notices := folded m.enabled m.timer.roundCount m.grantZeroed m.notices } := by
  unfold State.reportRound
  rw [if_pos h]
  simp only [h1]
  rw [if_pos (by decide), State.noticeAll_eq, State.noticeAll_notices]
  rfl

/-- The report moves nothing of the timer but the run-miss count. -/
theorem State.reportRound_timer (m : State) :
    m.reportRound.timer = { m.timer with runMisses := m.reportRound.timer.runMisses } := by
  by_cases h : m.missedRun = true
  · by_cases h1 : m.timer.runMisses = 1
    · rw [State.reportRound_zeroed h h1]
    · rw [State.reportRound_counted h h1]
  · rw [State.reportRound_kept h]

/-- The state a round opening takes its window sample in. -/
def State.reported (anchor : Instant) (m : State) : State :=
  let t := (m.opened anchor).reportRound
  { t with timer := { t.timer with outcome := .noAllocation } }

/-- What the report leaves alone is as before the opening. -/
theorem State.reported_keeps (anchor : Instant) (m : State) :
    (m.reported anchor).inputs = m.inputs ∧ (m.reported anchor).control = m.control ∧
    (m.reported anchor).window = m.window ∧ (m.reported anchor).now = m.now := by
  simp [State.reported, State.opened]

theorem State.openRound_timer (anchor : Instant) (m : State) :
    (m.openRound anchor).timer =
      { m.timer with
        anchor := some anchor
        roundCount := (m.timer.roundCount + 1) % 65536
        slotPending := true
        allocationPending := true
        outcome := .noAllocation
        runMisses := (m.opened anchor).reportRound.timer.runMisses } := by
  rw [State.openRound_eq]
  simp only [State.windowSample_keeps]
  rw [State.reportRound_timer]
  rfl

/-- Grant, setpoint and queue of an opening are those the report leaves. -/
theorem State.openRound_report (anchor : Instant) (m : State) :
    (m.openRound anchor).grant = (m.opened anchor).reportRound.grant ∧
    (m.openRound anchor).setpoint = (m.opened anchor).reportRound.setpoint ∧
    (m.openRound anchor).notices = (m.opened anchor).reportRound.notices := by
  simp [State.openRound_eq]

theorem State.openRound_window (anchor : Instant) (m : State) :
    (m.openRound anchor).window = ((m.reported anchor).windowSample anchor).window := rfl

/-- A round opening moves the timer, grant, setpoint, queue and window alone. -/
theorem State.openRound_frame (anchor : Instant) (m : State) :
    m.openRound anchor =
      { m with
        timer := (m.openRound anchor).timer, grant := (m.openRound anchor).grant
        setpoint := (m.openRound anchor).setpoint, notices := (m.openRound anchor).notices
        window := (m.openRound anchor).window } := by
  have h := State.openRound_keeps anchor m
  generalize m.openRound anchor = t at h ⊢
  cases t; cases m; simp_all

/-- Settles O30: the timer, then the three cases of the report, then the window sample. -/
theorem roundOpeningsCountMisses : Obligations.RoundOpeningsCountMisses := by
  unfold Obligations.RoundOpeningsCountMisses
  intro anchor s t missed
  have hmissed : (s.opened anchor).missedRun = true ↔ missed := State.missedRun_iff _
  have timer : t.timer = _ := State.openRound_timer anchor s
  obtain ⟨grant, setpoint, notices⟩ := State.openRound_report anchor s
  refine ⟨by rw [timer], by rw [timer], by rw [timer], by rw [timer], by rw [timer], by rw [timer], by rw [timer],
    fun h => ?kept, fun h => ?counted, fun ⟨h, h1⟩ => ?zeroed, fun h => ?notZeroed, fun c hc hs hst => ?sampled,
    fun h => ?unsampled, State.openRound_frame anchor s⟩
  case kept =>
    rw [timer, State.reportRound_kept (mt hmissed.mp h)]
    rfl
  case counted =>
    rw [timer]
    by_cases h1 : s.timer.runMisses = 1
    · rw [State.reportRound_zeroed (hmissed.mpr h) h1, h1]
      rfl
    · rw [State.reportRound_counted (hmissed.mpr h) h1]
      rfl
  case zeroed =>
    have q := State.reportRound_zeroed (hmissed.mpr h) (show (s.opened anchor).timer.runMisses = 1 from h1)
    refine ⟨?_, ?_, ?_⟩
    · rw [grant, q]; rfl
    · rw [setpoint, q]; rfl
    · rw [notices, q, timer]; rfl
  case notZeroed =>
    rw [grant, setpoint, notices]
    by_cases hm : missed
    · rw [State.reportRound_counted (hmissed.mpr hm) fun h1 => h ⟨hm, h1⟩]
      exact ⟨rfl, rfl, rfl⟩
    · rw [State.reportRound_kept (mt hmissed.mp hm)]
      exact ⟨rfl, rfl, rfl⟩
  case sampled =>
    intro matched clock
    obtain ⟨ki, kc, kw, kn⟩ := State.reported_keeps anchor s
    show (s.openRound anchor).window = _
    rw [State.openRound_window, State.windowSample_taken anchor (by rw [kc]; exact hc) (by rw [kc]; exact hs)
      (by rw [kc, StationState.runs_iff]; exact hst)]
    rw [State.clockMinute_clockAt, ki, kc, kw, kn]
    obtain hj | hj | hj := hst <;> simp [hj, StationState.joined, matched, clock]
  case unsampled =>
    obtain ⟨-, kc, kw, -⟩ := State.reported_keeps anchor s
    show (s.openRound anchor).window = _
    rw [State.openRound_window, State.windowSample_none, kw]
    rw [kc]
    obtain h | h | h | h | h := h
    · exact .inl h
    · exact .inr (.inl h)
    all_goals exact .inr (.inr (by rw [h]; rfl))

/-! ### The round timer (R13, R14) -/

theorem Transmitter.free_iff (t : Transmitter) : t.free = true ↔ t = .silent ∨ ∃ i, t = .mark i := by
  cases t <;> simp [Transmitter.free]

section
variable {dt : Nat} {idle : Bool} {s : State}

/-- Before its instant, or with no anchor, the timer does not expire. -/
theorem exec_roundTimerExpiry_early (hr : s.running = true)
    (h : s.timer.anchor = none ∨
      ∃ a, s.timer.anchor = some a ∧ (s.advance dt).now < after a (Config.timerExpiry s.number)) :
    exec (.roundTimerExpiry dt idle) s = .next (s.advance dt).settle := by
  show execRoundTimerExpiry dt idle s = _
  have hn : (s.advance dt).number = s.number := by simp [State.number]
  rw [execRoundTimerExpiry, happens_running hr]
  unfold State.timerExpires
  rw [hn, State.advance_timer]
  obtain h | ⟨a, h, he⟩ := h
  · rw [h]
  · rw [h]
    simp only []
    rw [if_neg (Int.not_le.mpr he)]

theorem exec_roundTimerExpiry_due (hr : s.running = true) {a : Instant} (h : s.timer.anchor = some a)
    (he : after a (Config.timerExpiry s.number) ≤ (s.advance dt).now) :
    exec (.roundTimerExpiry dt idle) s =
      .next (State.settle
        (((s.advance dt).openRound (after a (Config.timerExpiry s.number))).sendMark
          (after a (Config.timerExpiry s.number)) idle)) := by
  show execRoundTimerExpiry dt idle s = _
  have hn : (s.advance dt).number = s.number := by simp [State.number]
  rw [execRoundTimerExpiry, happens_running hr]
  unfold State.timerExpires
  rw [hn, State.advance_timer, h]
  simp only []
  rw [if_pos he]

end

/-- Settles O31: the instant, then whether a mark can start. -/
theorem roundTimerOpensARound : Obligations.RoundTimerOpensARound := by
  unfold Obligations.RoundTimerOpensARound
  constructor
  · exact fun dt idle s hr h => exec_roundTimerExpiry_early hr h
  · intro dt idle s a hr ha m e he marks
    rw [exec_roundTimerExpiry_due hr ha he]
    have hline : (m.openRound e).line = s.line := by simp [m]
    have hcontrol : (m.openRound e).control = s.control := by simp [m]
    have hmarks :
        (idle && (m.openRound e).control.state.watches && (m.openRound e).line.transmitter.free) = true ↔ marks := by
      rw [hline, hcontrol, Bool.and_eq_true, Bool.and_eq_true, StationState.watches_iff, Transmitter.free_iff, and_assoc]
    constructor
    · intro h
      show Host.Outcome.next (State.settle (State.sendMark e idle (m.openRound e))) = _
      unfold State.sendMark
      rw [if_pos (hmarks.mpr h), hline]
    · intro h
      show Host.Outcome.next (State.settle (State.sendMark e idle (m.openRound e))) = _
      unfold State.sendMark
      rw [if_neg (mt hmarks.mp h)]

end Sys2Proof.Machine
end

section
/-! The own slot (R10, R13, R37, R39, R65 to R69, R74; O37). -/

namespace Sys2Proof.Machine

/-! ### When the own slot opening is raised (R13, R18) -/

/-- The own slot opening has been raised: it is not raised again in this round. -/
def State.slotRaised (m : State) : State := { m with timer := { m.timer with slotPending := false } }

section
variable {m : State} {a : Instant} (ha : m.timer.anchor = some a)
include ha

/-- Before its instant, or raised already: nothing. -/
theorem State.slotOpens_early (idle : Bool)
    (h : m.timer.slotPending = false ∨ m.now < after a (Config.slotOpening m.number)) : m.slotOpens idle = m := by
  unfold State.slotOpens
  rw [ha]
  refine if_neg fun ⟨hp, he⟩ => ?_
  obtain h | h := h
  · rw [hp] at h; cases h
  · exact absurd he (Int.not_le.mpr h)

variable (hp : m.timer.slotPending = true) (he : after a (Config.slotOpening m.number) ≤ m.now)
include hp he

/-- Due, in a state that builds no frame: raised, and nothing built. -/
theorem State.slotOpens_unbuilt (idle : Bool) (hst : announcedState m.control.state = none) :
    m.slotOpens idle = m.slotRaised := by
  unfold State.slotOpens
  rw [ha, hst]
  exact if_pos ⟨hp, he⟩

/-- Due, in a state that builds a frame: the frame is built and handed. -/
theorem State.slotOpens_built (idle : Bool) {st : AnnouncedState} (hst : announcedState m.control.state = some st) :
    m.slotOpens idle = m.slotRaised.handFrame a (after a (Config.slotOpening m.number)) st idle := by
  unfold State.slotOpens
  rw [ha, hst]
  exact if_pos ⟨hp, he⟩

end

theorem State.slotOpens_stopped {m : State} (ha : m.timer.anchor = none) (idle : Bool) : m.slotOpens idle = m := by
  unfold State.slotOpens
  rw [ha]

theorem exec_ownSlotOpening {dt : Nat} {idle : Bool} {s : State} (hr : s.running = true) :
    exec (.ownSlotOpening dt idle) s = .next ((s.advance dt).slotOpens idle).settle := happens_running hr

/-! ### What is built (R65 to R69, R72, R74) -/

/-- The states in which no frame is built, and what a built one announces (R65). -/
theorem announcedState_none (st : StationState) :
    announcedState st = none ↔ st = .offline ∨ st = .joining ∨ st = .faulted := by
  cases st <;> simp [announcedState]

theorem announcedState_some {st : StationState} (h : st = .member ∨ st = .holding ∨ st = .leaving) :
    ∃ a, announcedState st = some a ∧ (a = .member ↔ st = .member) ∧ (a = .holding ↔ st = .holding) ∧
      (a = .leaving ↔ st = .leaving) := by
  obtain rfl | rfl | rfl := h <;> exact ⟨_, rfl, by decide, by decide, by decide⟩

/-- The chosen kind is that of the entry at the chosen place. -/
theorem chosenKind_eq (x : PlanContext) (plan : List RiderEntry) :
    chosenKind x plan = (chosenIndex x plan).bind fun i => (plan[i]?).map fun e => e.entry.kind := by
  unfold chosenKind
  cases chosenIndex x plan <;> rfl

/-- The digest is current exactly where it is of the round before (R68). -/
theorem State.digestCurrent_iff (m : State) :
    m.digestCurrent = true ↔ ∃ r, m.grant.digestRound = some r ∧ (r + 1) % 65536 = m.timer.roundCount := by
  unfold State.digestCurrent previousRun
  cases m.grant.digestRound <;> simp

theorem State.planContext_advance (dt : Nat) (s : State) :
    (s.advance dt).planContext =
      { round := s.timer.roundCount, strap := s.control.signalStrap.getD false
        profileHeld := s.readiness.profile.isSome } := by
  simp [State.planContext]

/-- The plan after a build, in the plan found (R72, R73). -/
theorem State.planBuilt_eq (m : State) :
    m.planBuilt = m.plan.map (remark m.planContext (chosenIndex m.planContext (m.plan.getD []))) := by
  unfold State.planBuilt
  cases m.plan <;> rfl

/-- Handing a frame moves the plan, the two counts of the control, and the line. -/
theorem State.handFrame_slotRaised (m : State) (a opening : Instant) (st : AnnouncedState) (idle : Bool) :
    m.slotRaised.handFrame a opening st idle =
      { m with
        timer := { m.timer with slotPending := false }
        plan := m.planBuilt
        control :=
          { m.control with
            leaveAttempts := if st = .leaving then min 3 (m.control.leaveAttempts + 1) else m.control.leaveAttempts
            announcementBuilt := true }
        line :=
          { m.line.stopped opening with
            transmitter :=
              if idle then .sending opening (m.ownFrame a st) else .waiting opening (m.ownFrame a st) } } := rfl

theorem State.number_advance (dt : Nat) (s : State) : (s.advance dt).number = s.number := by simp [State.number]

/-- Settles O37: before its instant, in a state that builds nothing, and in one that builds. -/
theorem ownSlotOpeningBuildsTheFrame : Obligations.OwnSlotOpeningBuildsTheFrame := by
  unfold Obligations.OwnSlotOpeningBuildsTheFrame
  constructor
  · intro dt idle s hr h
    have mt := State.advance_timer dt s
    rw [exec_ownSlotOpening hr]
    obtain h | h | ⟨a, ha, he⟩ := h
    · rw [State.slotOpens_stopped (by rw [mt]; exact h)]
    · cases ha : s.timer.anchor with
      | none => rw [State.slotOpens_stopped (by rw [mt]; exact ha)]
      | some a => rw [State.slotOpens_early (by rw [mt]; exact ha) idle (.inl (by rw [mt]; exact h))]
    · rw [State.slotOpens_early (by rw [mt]; exact ha) idle (.inr (by rw [State.number_advance]; exact he))]
  · intro dt idle s a hr ha hp m n opening he leaving plan x kind clock
    have mc : m.control = s.control := by simp [m]
    have mp : m.plan = s.plan := by simp [m]
    have ml : m.line = s.line := by simp [m]
    have mg : m.grant = s.grant := by simp [m]
    have mt : m.timer = s.timer := State.advance_timer dt s
    have mx : m.planContext = x := State.planContext_advance dt s
    have mn : m.number = n := State.number_advance dt s
    rw [← mt] at ha hp
    rw [exec_ownSlotOpening hr]
    constructor
    · intro h
      rw [State.slotOpens_unbuilt ha hp (by rw [mn]; exact he) idle (by rw [mc]; exact (announcedState_none _).mpr h),
        ← mt]
      rfl
    · intro h
      obtain ⟨st, hst, hmember, hholding, hleaving⟩ := announcedState_some h
      have hkind : chosenKind m.planContext (m.plan.getD []) = kind := by rw [mx, mp, chosenKind_eq]
      have hrider : (m.ownFrame a st).rider = m.riderOf a kind := congrArg (m.riderOf a) hkind
      have hsignal : (m.ownFrame a st).signal = m.ownSignal := rfl
      refine ⟨m.ownFrame a st, mn, hmember, hholding, hleaving, congrArg StationControl.causes mc, fun hl => ?leavingOffer,
        fun hl => ?offer, ?energy, congrArg GrantEngine.digest mg, ?current, fun hs => ?signal, fun hs => ?noSignal, fun hk => ?noRider,
        fun hk => ?roster, fun p hk hprofile => ?profile, fun hk => ?clock, ?handed⟩
      case leavingOffer =>
        have hl' : st = .leaving := hleaving.mpr hl
        simp [State.ownFrame, hl']
      case offer =>
        have hl' : ¬st = .leaving := fun e => hl (hleaving.mp e)
        simp [State.ownFrame, hl', m]
      case energy => simp [State.ownFrame, m]
      case current =>
        show m.digestCurrent = true ↔ _
        rw [State.digestCurrent_iff, mg, mt]
      case signal => simp [hsignal, State.ownSignal, m, hs]
      case noSignal => simp [hsignal, State.ownSignal, m, hs]
      case noRider => rw [hrider, hk]; rfl
      case roster => rw [hrider, hk]; simp [State.riderOf, m]
      case profile => rw [hrider, hk]; simp [State.riderOf, m, hprofile]
      case clock =>
        rw [hrider, hk]
        simp only [State.riderOf, State.clockMinute_clockAt, State.clockSecond_clockAt]
        rfl
      case handed =>
        rw [State.slotOpens_built ha hp (by rw [mn]; exact he) idle (by rw [mc]; exact hst),
          State.handFrame_slotRaised, State.planBuilt_eq, mt, mc, ml, mp, mx, mn]
        simp only [hleaving]
        rfl

end Sys2Proof.Machine
end

section
/-! The allocation point: ageing, sets, authority, adopted window and census (R9, R13, R51 to R61, R94; O38). -/

namespace Sys2Proof.Machine

/-! ### The peer entries after an ageing (R51, R52) -/

theorem isPeer_eq (own : Option Nat) (k : Nat) : isPeer own k = decide (own ≠ some k) :=
  decide_eq_decide.mpr ne_comm

theorem isPeer_iff (own : Option Nat) (k : Nat) : isPeer own k = true ↔ own ≠ some k := by
  rw [isPeer_eq, decide_eq_true_eq]

/-- The misses an ageing counts (R51). -/
def PeerEntry.agedMisses (e : PeerEntry) : Nat := if e.frameSince then 0 else min 8 (e.missCount + 1)

theorem PeerEntry.agedMisses_le (e : PeerEntry) : e.agedMisses ≤ 8 := by
  unfold PeerEntry.agedMisses
  split <;> omega

theorem presenceOfMisses_isPresent (n : Nat) : (presenceOfMisses n).isPresent = decide (n ≤ 7) := by
  unfold presenceOfMisses
  split
  · simp [Presence.isPresent]; omega
  · split <;> simp [Presence.isPresent, *]

theorem PeerEntry.aged_absent {e : PeerEntry} (h : e.presence.isPresent = false) :
    e.aged = { e with standing := e.presence, leftSince := false } := by
  simp [PeerEntry.aged, h]

/-- A present entry, by whether the misses counted leave it present. -/
theorem PeerEntry.aged_present {e : PeerEntry} (h : e.presence.isPresent = true) :
    e.aged =
      if (presenceOfMisses e.agedMisses).isPresent then
        { e with
          presence := presenceOfMisses e.agedMisses
          missCount := e.agedMisses
          roster := e.roster.bind Roster.aged
          profile := e.profile.bind PeerProfile.aged
          standing := presenceOfMisses e.agedMisses
          leftSince := false }
      else
        { e with
          presence := presenceOfMisses e.agedMisses, missCount := e.agedMisses, signal := none, roster := none
          profile := none, standing := presenceOfMisses e.agedMisses, leftSince := false } := if_pos h

/-- An entry aged to eight misses is silent and holds no part. -/
theorem PeerEntry.aged_silent {e : PeerEntry} (h : e.presence.isPresent = true) (h8 : e.agedMisses = 8) :
    e.aged =
      { e with
        presence := presenceOfMisses e.agedMisses, missCount := e.agedMisses, signal := none, roster := none
        profile := none, standing := presenceOfMisses e.agedMisses, leftSince := false } := by
  rw [PeerEntry.aged_present h, h8]
  exact if_neg (by decide)

/-- An entry aged to fewer misses keeps its parts, its riders a round older. -/
theorem PeerEntry.aged_heard {e : PeerEntry} (h : e.presence.isPresent = true) (h8 : e.agedMisses ≠ 8) :
    e.aged =
      { e with
        presence := presenceOfMisses e.agedMisses
        missCount := e.agedMisses
        roster := e.roster.bind Roster.aged
        profile := e.profile.bind PeerProfile.aged
        standing := presenceOfMisses e.agedMisses
        leftSince := false } := by
  have hle := e.agedMisses_le
  rw [PeerEntry.aged_present h]
  exact if_pos (by rw [presenceOfMisses_isPresent]; exact decide_eq_true (by omega))

/-- Ageing leaves the flag of the round, the core, the kind and the round last heard. -/
theorem PeerEntry.aged_keeps (e : PeerEntry) :
    e.aged.frameSince = e.frameSince ∧ e.aged.core = e.core ∧ e.aged.riderKind = e.riderKind ∧
    e.aged.lastHeard = e.lastHeard := by
  cases h : e.presence.isPresent with
  | false => rw [PeerEntry.aged_absent h]; exact ⟨rfl, rfl, rfl, rfl⟩
  | true =>
    by_cases h8 : e.agedMisses = 8
    · rw [PeerEntry.aged_silent h h8]; exact ⟨rfl, rfl, rfl, rfl⟩
    · rw [PeerEntry.aged_heard h h8]; exact ⟨rfl, rfl, rfl, rfl⟩

/-- A rider's age after an ageing, absent from 16 rounds on (R52). -/
def olderAge (age : Nat) : Option Nat := if 16 ≤ age + 1 then none else some (age + 1)

theorem Roster.aged_eq (r : Roster) : r.aged = (olderAge r.age).map fun g => { r with age := g } := by
  unfold Roster.aged olderAge
  split <;> rfl

theorem PeerProfile.aged_eq (p : PeerProfile) : p.aged = (olderAge p.age).map fun g => { p with age := g } := by
  unfold PeerProfile.aged olderAge
  split <;> rfl

/-! ### The Peer Table after an allocation point (R51 to R60) -/

/-- The entries aged, their flags not yet cleared. -/
def PeerTable.agedEntries (t : PeerTable) (own : Option Nat) : List PeerEntry := ageEntries own 0 t.entries

/-- The Peer Table an allocation point leaves, but for the census. -/
def PeerTable.afterAgeing (t : PeerTable) (c : StationControl) : PeerTable :=
  { t with
    entries := clearFlags (t.agedEntries c.number)
    received := receivedSet c.number (t.agedEntries c.number)
    heard := heardSet c.number (receivedSet c.number (t.agedEntries c.number))
    liveCount := liveCountOf c.number c.state (t.agedEntries c.number)
    authority := authorityOf c.number (c.signalStrap.getD false) c.state (t.agedEntries c.number) }

/-- The window an allocation point adopts (R94). -/
def State.adoptedNext (m : State) : SignalPart :=
  adoptedFrom m.control.number m.window.own (m.peers.afterAgeing m.control).authority
    (m.peers.afterAgeing m.control) m.window.adopted

/-- The Peer Table an allocation point leaves, whole: aged, and the census fixed by the adopted window (R57). -/
theorem State.allocate_peers (order : Arrival) (m : State) :
    (m.allocate order).peers =
      { m.peers.afterAgeing m.control with
        census :=
          censusOf m.window.adopted m.adoptedNext m.peers.census (m.peers.afterAgeing m.control).liveCount } := by
  simp [State.allocate]
  rfl

theorem State.allocate_window (order : Arrival) (m : State) :
    (m.allocate order).window = { m.window with adopted := m.adoptedNext } := by
  simp [State.allocate]
  rfl

theorem State.allocate_line (order : Arrival) (m : State) :
    (m.allocate order).line = { m.line with lastCorrupt := m.line.corrupt, corrupt := 0 } := by
  simp [State.allocate]
  rfl

/-- Judging isolation leaves the state and the configuration of the control. -/
theorem State.judgeIsolation_state (m : State) :
    m.judgeIsolation.1.control.state = m.control.state ∧
    m.judgeIsolation.1.control.configuration = m.control.configuration := by
  rw [(State.judgeIsolation_control m).1]
  exact ⟨rfl, rfl⟩

theorem State.freezeView_timer {m : State} {c : Configuration} (hc : m.control.configuration = some c) :
    m.freezeView.1.timer = { m.timer with outcome := if m.control.state.runs then .running else .noRun } := by
  rw [freezeView_some hc]
  split <;> rfl

theorem State.allocate_timer (order : Arrival) {m : State} {c : Configuration}
    (hc : m.control.configuration = some c) :
    (m.allocate order).timer =
      { m.timer with
        allocationPending := false
        allocations := min 2 (m.timer.allocations + 1)
        outcome := if m.control.state.runs then .running else .noRun } := by
  simp only [State.allocate, State.noticeAll_keeps, State.joinIfDue_keeps]
  rw [State.freezeView_timer (c := c) (by simp [State.judgeIsolation_state, hc])]
  simp [State.judgeIsolation_state]

section
variable (t : PeerTable) (c : StationControl)

theorem PeerTable.agedEntries_length (own : Option Nat) : (t.agedEntries own).length = t.entries.length :=
  ageEntries_length own 0 t.entries

/-- The heard set: the own number and the received set (R55). -/
theorem PeerTable.afterAgeing_heard {k : Nat} (hk : k < 32) :
    (t.afterAgeing c).heard.getLsbD k = true ↔
      c.number = some k ∨ (t.afterAgeing c).received.getLsbD k = true := by
  show (heardSet c.number (t.afterAgeing c).received).getLsbD k = true ↔ _
  cases c.number with
  | none => simp [heardSet]
  | some n =>
    have hbit : (stationBit n).getLsbD k = decide (n = k) := by
      simp only [stationBit, BitVec.getLsbD_ofNat, hk, decide_true, Bool.true_and, Nat.testBit_two_pow]
    simp [heardSet, hbit]

variable {t} (h32 : t.entries.length = 32)
include h32

theorem PeerTable.agedEntries_get (own : Option Nat) {k : Nat} (hk : k < 32) :
    (t.agedEntries own).getD k .reset = if isPeer own k then (t.entry k).aged else t.entry k := by
  have h := ageEntries_get own 0 t.entries k (by omega)
  rwa [Nat.zero_add] at h

theorem PeerTable.afterAgeing_entry {k : Nat} (hk : k < 32) :
    (t.afterAgeing c).entry k =
      { (if isPeer c.number k then (t.entry k).aged else t.entry k) with frameSince := false } := by
  rw [← PeerTable.agedEntries_get h32 c.number hk]
  exact clearFlags_get _ k

/-- The received set: the peers whose frame came since the last ageing (R54). -/
theorem PeerTable.afterAgeing_received {k : Nat} (hk : k < 32) :
    (t.afterAgeing c).received.getLsbD k = true ↔ c.number ≠ some k ∧ (t.entry k).frameSince = true := by
  have hlen := PeerTable.agedEntries_length t c.number
  show (stationsWhere _ 0 (t.agedEntries c.number)).getLsbD k = true ↔ _
  rw [stationsWhere_get _ _ _ _ hk, Nat.sub_zero, PeerTable.agedEntries_get h32 c.number hk, ← isPeer_iff]
  have hlt : k < 0 + (t.agedEntries c.number).length := by omega
  by_cases hp : isPeer c.number k = true <;> simp [hp, PeerEntry.aged_keeps]
  omega

/-- The live count: the own station in MEMBER or HOLDING, and the peers present (R56). -/
theorem PeerTable.afterAgeing_liveCount :
    (t.afterAgeing c).liveCount =
      (if c.state.joined then 1 else 0) +
        ((List.range 32).filter fun k =>
          decide (c.number ≠ some k) && ((t.afterAgeing c).entry k).presence.isPresent).length := by
  show (if c.state.joined then 1 else 0) + countWhere _ 0 (t.agedEntries c.number) = _
  rw [countWhere_eq, PeerTable.agedEntries_length, h32]
  congr 2
  refine List.filter_congr fun k hk => ?_
  have hk : k < 32 := List.mem_range.mp hk
  rw [PeerTable.afterAgeing_entry c h32 hk, PeerTable.agedEntries_get h32 c.number hk, Nat.zero_add, isPeer_eq]

/-- A candidate for authority (R59): the own station with its strap in MEMBER or HOLDING, a FRESH peer with a signal
part. -/
def PeerTable.candidate (t : PeerTable) (c : StationControl) (k : Nat) : Prop :=
  k < 32 ∧
  ((c.number = some k ∧ c.signalStrap = some true ∧ c.state.joined = true) ∨
    (c.number ≠ some k ∧ (t.entry k).presence = .fresh ∧ (t.entry k).signal ≠ none))

theorem PeerTable.candidate_afterAgeing {k : Nat} (hk : k < 32) :
    (t.afterAgeing c).candidate c k ↔
      (if isPeer c.number k then
        decide (((t.agedEntries c.number).getD k .reset).presence = .fresh) &&
          ((t.agedEntries c.number).getD k .reset).signal.isSome
       else c.signalStrap.getD false && c.state.joined) = true := by
  unfold PeerTable.candidate
  rw [PeerTable.afterAgeing_entry c h32 hk, PeerTable.agedEntries_get h32 c.number hk]
  by_cases hp : isPeer c.number k = true
  · have hn := (isPeer_iff _ _).mp hp
    simp [hp, hn, hk, Option.isSome_iff_ne_none]
  · have hn : c.number = some k := by simpa [isPeer_iff] using hp
    rw [if_neg hp, if_neg hp]
    cases hs : c.signalStrap <;> simp [hn, hk]

/-- The authority is the lowest candidate (R59). -/
theorem PeerTable.afterAgeing_authority :
    (∀ k, (t.afterAgeing c).authority = some k →
      (t.afterAgeing c).candidate c k ∧ ∀ j < k, ¬(t.afterAgeing c).candidate c j) ∧
    ((t.afterAgeing c).authority = none → ∀ k, ¬(t.afterAgeing c).candidate c k) := by
  have hlen := PeerTable.agedEntries_length t c.number
  constructor
  · intro k hk
    obtain ⟨-, hlt, hthis, hlower⟩ := firstWhere_some _ 0 _ k hk
    have hk32 : k < 32 := by omega
    refine ⟨(PeerTable.candidate_afterAgeing c h32 hk32).mpr hthis, fun j hj hcand => ?_⟩
    have hno := hlower j (Nat.zero_le j) hj
    rw [Nat.sub_zero, (PeerTable.candidate_afterAgeing c h32 (by omega)).mp hcand] at hno
    cases hno
  · intro hnone k hcand
    have hk32 : k < 32 := hcand.1
    have hno := firstWhere_none _ 0 _ hnone k (Nat.zero_le k) (by omega)
    rw [Nat.sub_zero, (PeerTable.candidate_afterAgeing c h32 hk32).mp hcand] at hno
    cases hno

end

/-! ### The window adopted (R94) -/

theorem adoptedFrom_none (own : Option Nat) (w : OwnWindow) (t : PeerTable) (held : SignalPart) :
    adoptedFrom own w none t held = ⟨.closed, held.sequence, 0⟩ := rfl

theorem adoptedFrom_own {own : Option Nat} {k : Nat} (h : own = some k) (w : OwnWindow) (t : PeerTable)
    (held : SignalPart) : adoptedFrom own w (some k) t held = ⟨w.state, w.sequence, w.budget⟩ := if_pos h.symm

theorem adoptedFrom_peer {own : Option Nat} {k : Nat} (h : own ≠ some k) {t : PeerTable} {p : SignalPart}
    (hp : (t.entry k).signal = some p) (w : OwnWindow) (held : SignalPart) :
    adoptedFrom own w (some k) t held = ⟨p.state, p.sequence, if p.state = .closed then 0 else p.budget⟩ := by
  unfold adoptedFrom
  simp only []
  rw [if_neg (Ne.symm h), hp]

/-! ### The allocation point (R13, R61) -/

theorem exec_allocationPoint {dt : Nat} {order : Arrival} {s : State} (hr : s.running = true) :
    exec (.allocationPoint dt order) s = .next ((s.advance dt).allocationPoint order).settle := happens_running hr

theorem after_allocationInstant (a : Instant) : after a Config.allocationInstant = a + 1660000 := rfl

/-- The allocation point is raised where an anchor is held, it is still to be raised, and its instant has come. -/
theorem State.allocationPoint_due {m : State} {a : Instant} (ha : m.timer.anchor = some a)
    (hp : m.timer.allocationPending = true) (he : a + 1660000 ≤ m.now) (order : Arrival) :
    m.allocationPoint order = m.allocate order := by
  unfold State.allocationPoint
  rw [ha]
  exact if_pos ⟨hp, he⟩

theorem State.allocationPoint_early {m : State} (order : Arrival)
    (h : m.timer.anchor = none ∨ m.timer.allocationPending = false ∨
      ∃ a, m.timer.anchor = some a ∧ m.now < a + 1660000) : m.allocationPoint order = m := by
  unfold State.allocationPoint
  cases ha : m.timer.anchor with
  | none => rfl
  | some a =>
    refine if_neg fun ⟨hp, he⟩ => ?_
    rw [after_allocationInstant] at he
    obtain h | h | ⟨b, hb, hlt⟩ := h
    · rw [ha] at h; cases h
    · rw [hp] at h; cases h
    · rw [ha] at hb; cases hb
      exact absurd he (Int.not_le.mpr hlt)

/-- Settles O38: the instant, then line, timer, Peer Table, window and census, each by its own lemma. -/
theorem allocationPointAgesAndAdopts : Obligations.AllocationPointAgesAndAdopts := by
  unfold Obligations.AllocationPointAgesAndAdopts
  constructor
  · intro dt order s hr h
    rw [exec_allocationPoint hr, State.allocationPoint_early order (by rw [State.advance_timer]; exact h)]
  · intro dt order c s ⟨hr, hc, hp, a, ha, he⟩ h32
    have mp : (s.advance dt).peers = s.peers := by simp
    have mc : (s.advance dt).control = s.control := by simp
    have mt : (s.advance dt).timer = s.timer := State.advance_timer dt s
    have ml : (s.advance dt).line = s.line := by simp
    obtain ⟨-, -, mown, madopted⟩ := State.advance_window dt s
    have hdue := State.allocationPoint_due (m := s.advance dt) (by rw [mt]; exact ha) (by rw [mt]; exact hp)
      (by rw [State.advance_now]; exact he) order
    have adopted : (s.advance dt).adoptedNext = adoptedFrom s.control.number s.window.own
        (s.peers.afterAgeing s.control).authority (s.peers.afterAgeing s.control) s.window.adopted := by
      unfold State.adoptedNext
      rw [mp, mc, mown, madopted]
    rw [exec_allocationPoint hr, hdue]
    refine ⟨_, rfl, ?_⟩
    have line := State.allocate_line order (s.advance dt)
    have timer := State.allocate_timer order (m := s.advance dt) (by rw [mc]; exact hc)
    have peers := State.allocate_peers order (s.advance dt)
    have window := State.allocate_window order (s.advance dt)
    rw [ml] at line
    rw [mt, mc] at timer
    rw [mp, mc, madopted] at peers
    simp only [State.settle_keeps]
    generalize (s.advance dt).allocate order = t at line timer peers window ⊢
    generalize (s.advance dt).adoptedNext = adopts at peers window adopted
    have entry : ∀ k, t.peers.entry k = (s.peers.afterAgeing s.control).entry k := fun k => by rw [peers]; rfl
    have entryAged := fun k (hk : k < 32) => PeerTable.afterAgeing_entry s.control h32 hk
    have received : t.peers.received = (s.peers.afterAgeing s.control).received := by rw [peers]
    have heard : t.peers.heard = (s.peers.afterAgeing s.control).heard := by rw [peers]
    have liveCount : t.peers.liveCount = (s.peers.afterAgeing s.control).liveCount := by rw [peers]
    have authority : t.peers.authority = (s.peers.afterAgeing s.control).authority := by rw [peers]
    have adoptedNow : t.window.adopted = adopts := by rw [window]
    refine ⟨line, timer, ?length, fun k hk => ⟨fun hown => ?own, fun hown habs => ?absent, fun hown hpres => ?present⟩,
      fun k hk => ?sets, ?liveCount, ?authority, ?window, fun hnone => ?closed, fun k hk => ⟨fun hown => ?ownWindow,
        fun p hown hsig => ?peerWindow⟩, ?census⟩
    case length =>
      rw [peers]
      show (clearFlags _).length = 32
      simp [clearFlags, PeerTable.agedEntries_length, h32]
    case own => rw [entry, entryAged k hk, if_neg (by simp [isPeer_iff, hown])]
    case absent => rw [entry, entryAged k hk, if_pos ((isPeer_iff _ _).mpr hown), PeerEntry.aged_absent habs]
    case present =>
      rw [entry, entryAged k hk, if_pos ((isPeer_iff _ _).mpr hown)]
      by_cases h8 : (s.peers.entry k).agedMisses = 8
      · rw [PeerEntry.aged_silent hpres h8]
        exact ⟨rfl, rfl, rfl, rfl, rfl, rfl, rfl, rfl, fun _ => ⟨rfl, rfl, rfl⟩, fun hne => absurd h8 hne⟩
      · rw [PeerEntry.aged_heard hpres h8]
        refine ⟨rfl, rfl, rfl, rfl, rfl, rfl, rfl, rfl, fun heq => absurd heq h8, fun _ => ⟨rfl, ?_, ?_⟩⟩
        · exact congrArg (s.peers.entry k).roster.bind (funext Roster.aged_eq)
        · exact congrArg (s.peers.entry k).profile.bind (funext PeerProfile.aged_eq)
    case sets =>
      rw [received, heard]
      exact ⟨PeerTable.afterAgeing_received s.control h32 hk, PeerTable.afterAgeing_heard s.peers s.control hk⟩
    case liveCount =>
      rw [liveCount, PeerTable.afterAgeing_liveCount s.control h32]
      simp only [entry]
    case authority =>
      simp only [entry]
      rw [authority]
      exact PeerTable.afterAgeing_authority s.control h32
    case window => rw [window]
    case closed => rw [adoptedNow, adopted, ← authority, hnone, adoptedFrom_none]
    case ownWindow => rw [adoptedNow, adopted, ← authority, hk, adoptedFrom_own hown]
    case peerWindow => rw [adoptedNow, adopted, ← authority, hk, adoptedFrom_peer hown (by rw [← entry]; exact hsig)]
    case census => rw [adoptedNow, liveCount, peers]; rfl

end Sys2Proof.Machine
end

section
/-! START (R19, R23, R24, R55, R64, R70, R79, R81, R161, R171, R177; O11). -/

namespace Sys2Proof.Machine

/-! ### The fields of a START that passed its checks (R161, R171) -/

/-- No field is out of range exactly where every check holds. -/
theorem firstBad_eq_none (oks : List Bool) : firstBad oks = none ↔ ∀ ok ∈ oks, ok = true := by
  induction oks with
  | nil => simp [firstBad]
  | cons ok oks ih => cases ok <;> simp [firstBad, ih]

/-- A grid specification byte in range, as R171 spells its bits. -/
theorem gridSpecD_eq {n : Nat} (h : (gridSpecOf n).isSome = true) :
    gridSpecD n =
      { care := decide (128 ≤ n)
        condition :=
          if n / 64 % 2 = 0 then (if n % 4 = 1 then .levelHigh else .levelLow)
          else if n % 4 = 1 then .rising else if n % 4 = 2 then .falling else .either } := by
  have spelled : ∀ k, n % 128 = k → n / 64 % 2 = k / 64 ∧ n % 4 = k % 4 := fun k hk => by omega
  unfold gridSpecD
  unfold gridSpecOf at h ⊢
  dsimp only at h ⊢
  split at h
  case h_6 => cases h
  all_goals
    rename_i hk
    obtain ⟨h64, h4⟩ := spelled _ hk
    rw [h64, h4]
    rfl

theorem patternModeOf_getD {n : Nat} (h : (patternModeOf n).isSome = true) :
    (patternModeOf n).getD .none =
      if n = 0 then .none else if n = 1 then .all else if n = 2 then .any else .ranked := by
  unfold patternModeOf at h ⊢
  split at h
  case h_5 => cases h
  all_goals rfl

/-- A rider plan entry in range, field by field (R70). -/
theorem planEntryOf_eq {fs : List Byte} {i : Nat} (h : (planEntryOf fs i).isSome = true) :
    planEntryOf fs i =
      some
        { kind := if fieldByte fs i = 1 then .roster else if fieldByte fs i = 2 then .profile else .clock
          period := fieldByte fs (i + 1), offset := fieldByte fs (i + 2) } := by
  have kind : ∀ n k, planKindOf n = some k →
      k = if n = 1 then .roster else if n = 2 then .profile else .clock := by
    intro n k hk
    unfold planKindOf at hk
    split at hk <;> cases hk <;> rfl
  unfold planEntryOf at h ⊢
  cases hk : planKindOf (fieldByte fs i) with
  | none => rw [hk] at h; cases h
  | some k =>
    rw [hk] at h
    dsimp only at h ⊢
    split at h
    · rename_i hin
      rw [if_pos hin, ← kind _ _ hk]
    · cases h

/-- A list of values that are all there, with none left out. -/
theorem filterMap_id_map_some {α β : Type} (g : α → β) (l : List α) :
    (l.map fun a => some (g a)).filterMap id = l.map g := by
  induction l with
  | nil => rfl
  | cons a l ih => exact congrArg (g a :: ·) ih

/-- The rider plan of a START whose entries are in range. -/
theorem planEntries_eq {fs : List Byte} (h : ∀ i < fieldByte fs 33, (planEntryOf fs (34 + 3 * i)).isSome = true) :
    planEntries fs =
      (List.range (fieldByte fs 33)).map fun i =>
        { kind :=
            if fieldByte fs (34 + 3 * i) = 1 then .roster
            else if fieldByte fs (34 + 3 * i) = 2 then .profile else .clock
          period := fieldByte fs (34 + 3 * i + 1), offset := fieldByte fs (34 + 3 * i + 2) } := by
  unfold planEntries
  rw [List.map_congr_left fun i hi => planEntryOf_eq (h i (List.mem_range.mp hi))]
  exact filterMap_id_map_some _ _

/-- What the checks of a START say of the fields whose values are not read as they stand. -/
theorem startChecks_pass {fs : List Byte} (h : firstBad (startChecks fs) = none) :
    (gridSpecOf (fieldByte fs 7)).isSome = true ∧ (gridSpecOf (fieldByte fs 8)).isSome = true ∧
    (gridSpecOf (fieldByte fs 9)).isSome = true ∧ (gridSpecOf (fieldByte fs 10)).isSome = true ∧
    (patternModeOf (fieldByte fs 11)).isSome = true ∧
    ∀ i < fieldByte fs 33, (planEntryOf fs (34 + 3 * i)).isSome = true := by
  have pass : ∀ ok ∈ startChecks fs, ok = true := (firstBad_eq_none _).mp h
  refine ⟨pass _ (by simp [startChecks]), pass _ (by simp [startChecks]), pass _ (by simp [startChecks]),
    pass _ (by simp [startChecks]), pass _ (by simp [startChecks]), fun i hi => ?_⟩
  have count : within 0 (fieldByte fs 33) 4 = true := pass _ (by simp [startChecks])
  have hcount : fieldByte fs 33 ≤ 4 := (of_decide_eq_true count).2
  have entry : planFieldOk fs i = true := by
    have hi4 : i < 4 := by omega
    obtain rfl | rfl | rfl | rfl : i = 0 ∨ i = 1 ∨ i = 2 ∨ i = 3 := by omega
    all_goals exact pass _ (by simp [startChecks])
  unfold planFieldOk at entry
  rw [Bool.or_eq_true, decide_eq_true_eq] at entry
  exact entry.resolve_left (by omega)

/-! ### START taken -/

/-- What START latches and starts, before the window sample of round 0 (R19, R23, R24). -/
def State.started (straps : Straps) (fs : List Byte) (m : State) : State :=
  let c := startConfiguration fs
  let n := straps.number.toNat
  { m with
    control :=
      { state := .joining, causes := startCauses m.inputs, number := some n, signalStrap := some straps.signal
        configuration := some c, peerHeard := false, isolated := false, leaveAttempts := 0
        withdrawalPending := false, announcementBuilt := false }
    line := { m.line with receiver := .awaitingIdle, readbackFailures := 0 }
    timer :=
      { m.timer with
        anchor := some m.now, fixed := false, slotPending := true, allocationPending := true
        allocations := 0, outcome := .noAllocation }
    peers := { m.peers with heard := stationBit n }
    plan := some (startPlan n c.plan)
    window := { m.window with clock := startClock fs, own := { m.window.own with heldTarget := 0 } }
    notices := purgedNotices c n m.notices }

theorem State.takeStart_eq (straps : Straps) (fs : List Byte) (m : State) :
    m.takeStart straps fs = (m.started straps fs).windowSample m.now := rfl

/-- The window after START: the clock and the held target set, and the sample of round 0 at a signal station. -/
theorem State.takeStart_window (straps : Straps) (fs : List Byte) (m : State) :
    (m.takeStart straps fs).window =
      { m.window with
        clock := startClock fs
        own := { m.window.own with heldTarget := 0 }
        current :=
          if straps.signal then
            some ⟨m.inputs.grid, patternMatch (startConfiguration fs) m.window.current m.inputs.grid⟩
          else m.window.current
        previous := if straps.signal then m.window.current else m.window.previous } := by
  rw [State.takeStart_eq]
  cases hs : straps.signal with
  | true =>
    rw [State.windowSample_taken (c := startConfiguration fs) m.now rfl (congrArg some hs) rfl]
    rfl
  | false =>
    rw [State.windowSample_none m.now (.inr (.inl fun h => by cases hs.symm.trans (Option.some.inj h)))]
    rfl

theorem State.takeStart_frame (straps : Straps) (fs : List Byte) (m : State) :
    m.takeStart straps fs = { m.started straps fs with window := (m.takeStart straps fs).window } := by
  rw [State.takeStart_eq]
  exact State.windowSample_eq _ _

/-- START at a part that takes it. -/
theorem exec_start_taken {dt : Nat} {straps : Straps} {len : Byte} {fs : List Byte} {s : State} (hs : s.accepts)
    (h : checkRequest (kindCode .start) len fs s.control.state = .pass .start) :
    exec (.start dt straps len fs) s =
      .next (State.settle
        (((s.written dt (fs.length + 2)).openRequest (kindCode .start) len fs).takeStart straps fs)) := by
  obtain ⟨hr, hb⟩ := hs
  exact execWriteRequest_pass hr hb h

/-- A write leaves every item but the link, the window's clock, the readings and the counts of time and free bytes. -/
theorem State.written_keeps (dt n : Nat) (s : State) :
    (s.written dt n).inputs = s.inputs ∧ (s.written dt n).line = s.line ∧ (s.written dt n).timer = s.timer ∧
    (s.written dt n).peers = s.peers ∧ (s.written dt n).notices = s.notices ∧
    (s.written dt n).window.own = s.window.own ∧ (s.written dt n).window.current = s.window.current ∧
    (s.written dt n).window.previous = s.window.previous := by
  simp [State.written]

/-- Settles O11: the configuration field by field from the checks, then each block of the state that START leaves. -/
theorem startEntersJoining : Obligations.StartEntersJoining := by
  unfold Obligations.StartEntersJoining
  intro dt straps len fs s hs hcheck m b w grid entry c n
  obtain ⟨-, -, -, -, hfields⟩ := checkRequest_pass hcheck
  obtain ⟨g7, g8, g9, g10, hmode, hentries⟩ := startChecks_pass hfields
  have word : ∀ i, fieldWord fs i = w i := fun i => congrArg (· + b (i + 1)) (Nat.mul_comm (b i) 256)
  have hplan : planEntries fs = (List.range (b 33)).map entry := by
    rw [planEntries_eq hentries]
    refine List.map_congr_left fun i _ => ?_
    show PlanEntry.mk _ (b (34 + 3 * i + 1)) (b (34 + 3 * i + 2)) = PlanEntry.mk _ (b (35 + 3 * i)) (b (36 + 3 * i))
    rw [show 34 + 3 * i + 1 = 35 + 3 * i by omega, show 34 + 3 * i + 2 = 36 + 3 * i by omega]
    rfl
  have henable : enableField fs = 65536 * b 30 + 256 * b 31 + b 32 := by
    show b 30 * 65536 + b 31 * 256 + b 32 = _
    omega
  have hc : startConfiguration fs = c := by
    unfold startConfiguration
    simp only [word, hplan, henable, gridSpecD_eq g7, gridSpecD_eq g8, gridSpecD_eq g9, gridSpecD_eq g10,
      patternModeOf_getD hmode]
    rfl
  have hclock : startClock fs = 1000000 * (60 * w 46 + b 48) := by
    show (fieldWord fs 46 * 60 + b 48) * 1000000 = _
    rw [word]
    omega
  obtain ⟨mi, ml, mt, mp, mn, mown, mcurrent, mprevious⟩ := State.written_keeps dt (fs.length + 2) s
  have hq : (State.openRequest (kindCode .start) len fs m).running = true :=
    (State.running_of_inputs (s := s) mi).trans hs.1
  have window := State.takeStart_window straps fs (State.openRequest (kindCode .start) len fs m)
  have frame := State.takeStart_frame straps fs (State.openRequest (kindCode .start) len fs m)
  rw [hclock, hc] at window
  rw [exec_start_taken hs hcheck, State.settle_running (by rw [frame]; exact hq), frame, window]
  unfold State.started
  rw [hc]
  refine ⟨_, rfl, ?control, ?line, ?timer, ?peers, rfl, ?window, ?notices, rfl, rfl⟩
  case control => rw [← mi]; rfl
  case line => rw [← ml]; rfl
  case timer => rw [← mt]; rfl
  case peers => rw [← mp]; rfl
  case window => rw [← mi, ← mown, ← mcurrent, ← mprevious]; rfl
  case notices => rw [← mn]; rfl

end Sys2Proof.Machine
end

section
/-! Levels and characters on the depot line, and the classes of what is received (R1, R2; O20). -/

namespace Sys2Proof

/-! ### A long dominant level is a framing fault (R1) -/

/-- A receiver waits out a dominant level only after a fault. -/
def Gathered.HeldFaulted (g : Gathered) : Prop := g.phase = .held → g.fault = true

theorem Gathered.start_heldFaulted : Gathered.start.HeldFaulted := fun h => nomatch h

theorem Gathered.stopBit_heldFaulted (g : Gathered) (bits : List Level) (l : Level) :
    (g.stopBit bits l).HeldFaulted := by
  cases l with
  | recessive => exact fun h => nomatch h
  | dominant => exact fun _ => rfl

theorem Gathered.sample_heldFaulted {g : Gathered} (h : g.HeldFaulted) (l : Level) : (g.sample l).HeldFaulted := by
  unfold Gathered.sample
  split
  case h_1 | h_2 | h_4 => exact fun h => nomatch h
  case h_3 => exact h
  case h_5 =>
    split
    · exact fun h => nomatch h
    · exact Gathered.stopBit_heldFaulted g _ _

theorem Gathered.foldl_heldFaulted (ls : List Level) {g : Gathered} (h : g.HeldFaulted) :
    (ls.foldl Gathered.sample g).HeldFaulted := by
  induction ls generalizing g with
  | nil => exact h
  | cons l ls ih => exact ih (Gathered.sample_heldFaulted h l)

/-- Inside a character, a level that stays dominant past the stop bit's place is a fault. -/
theorem Gathered.dominant_inChar (n : Nat) : ∀ (g : Gathered) (bits : List Level), g.phase = .inChar bits →
    0 < n → 8 < n + bits.length → ((List.replicate n .dominant).foldl Gathered.sample g).fault = true := by
  induction n with
  | zero => intro g bits _ h; omega
  | succ n ih =>
    intro g bits hg _ hlen
    rw [List.replicate_succ, List.foldl_cons]
    by_cases h8 : bits.length < 8
    · have hs : g.sample .dominant = { g with phase := .inChar (bits ++ [.dominant]) } := by
        simp only [Gathered.sample, hg]
        exact if_pos h8
      rw [hs]
      exact ih _ (bits ++ [.dominant]) rfl (by omega) (by simp; omega)
    · have hs : g.sample .dominant = g.stopBit bits .dominant := by
        simp only [Gathered.sample, hg]
        exact if_neg h8
      rw [hs]
      exact (Gathered.foldl_grows _ _).1 rfl

/-- More than a character time dominant is a fault, wherever the receiver stands. -/
theorem Gathered.dominant_long {g : Gathered} (h : g.HeldFaulted) {n : Nat} (hn : 10 < n) :
    ((List.replicate n .dominant).foldl Gathered.sample g).fault = true := by
  cases hp : g.phase with
  | held => exact (Gathered.foldl_grows _ g).1 (h hp)
  | inChar bits => exact Gathered.dominant_inChar n g bits hp (by omega) (by omega)
  | between k =>
    obtain ⟨n, rfl⟩ : ∃ m, n = m + 1 := ⟨n - 1, by omega⟩
    have hs : g.sample .dominant = { g with phase := .inChar [] } := by
      simp only [Gathered.sample, hp]
    rw [List.replicate_succ, List.foldl_cons, hs]
    exact Gathered.dominant_inChar n _ [] rfl (by omega) (by simp; omega)

/-! ### What a receiver reads -/

theorem transmission_chars (cs : List Byte) : (transmission cs).chars = cs := by
  rw [Reception.chars, transmission_gathered]

theorem transmission_framingFault (cs : List Byte) : (transmission cs).framingFault = false := by
  rw [Reception.framingFault, transmission_gathered]
  rfl

theorem transmission_wellFormed {cs : List Byte} (h : cs ≠ []) : (transmission cs).wellFormed = true := by
  have hhead : (transmission cs).levels.head? = some .dominant := by
    cases cs with
    | nil => exact absurd rfl h
    | cons c cs => rfl
  rw [Reception.wellFormed, transmission_gathered, hhead]
  rfl

/-- A stop bit sampled dominant: a fault, of a character that is gathered as one (log entry 23). -/
theorem gathered_dominantStop (cs : List Byte) (c : Byte) (rest : List Level) :
    (⟨cs.flatMap charLevels ++ (charLevels c).take 9 ++ .dominant :: rest⟩ : Reception).gathered =
      rest.foldl Gathered.sample ⟨.held, cs ++ [c], true, false⟩ := by
  unfold Reception.gathered
  rw [List.foldl_append, List.foldl_append, Gathered.start, foldl_flatMap_charLevels, foldl_charBits, List.foldl_cons,
    Gathered.sample_stop]
  rfl

theorem lineLevel_of_mem {driven : List Level} (h : .dominant ∈ driven) : lineLevel driven = .dominant := if_pos h

theorem lineLevel_of_not_mem {driven : List Level} (h : .dominant ∉ driven) : lineLevel driven = .recessive := if_neg h

/-- A reception lasts its bit times and one character time, to the nearest microsecond. -/
theorem Reception.lasted_eq (r : Reception) : r.lasted = (625 * (r.levels.length + 10) + 6) / 12 := rfl

end Sys2Proof

namespace Sys2Proof.Machine

/-! ### What the part drives (R1) -/

/-- The number of bit times gone by, from the two bounds on twelve times the microseconds. -/
theorem bitIndex_eq {d : Int} {k : Nat} (hk : 625 * (k : Int) ≤ 12 * d) (hk' : 12 * d < 625 * ((k : Int) + 1)) :
    0 ≤ d ∧ 12 * d.toNat / 625 = k := by
  omega

section
variable {s : State} {start : Instant} {cs : List Byte} (h : s.line.transmitter.driven = some (start, cs))
include h

theorem State.driving_before (hn : s.now < start) : s.driving = .recessive := by
  unfold State.driving
  rw [h]
  exact if_neg (Int.not_le.mpr hn)

/-- The bit under way is the k-th, counted from 0, from k bit times after the start on. -/
theorem State.driving_bit {k : Nat} (hk : 625 * (k : Int) ≤ 12 * (s.now - start))
    (hk' : 12 * (s.now - start) < 625 * ((k : Int) + 1)) :
    s.driving = ((cs.flatMap charLevels)[k]?).getD .recessive := by
  obtain ⟨hpos, hbit⟩ := bitIndex_eq hk hk'
  unfold State.driving
  rw [h]
  dsimp only
  rw [if_pos (Int.le_of_sub_nonneg hpos), hbit]
  rfl

end

theorem State.driving_silent {s : State} (h : s.line.transmitter.driven = none) : s.driving = .recessive := by
  unfold State.driving
  rw [h]

/-! ### Classes (R2) -/

theorem classify_mark {r : Reception} (h : r.chars = markChars ∧ r.framingFault = false) : classify r = .mark := if_pos h

theorem classify_fragment {r : Reception} (h : ¬(r.chars = markChars ∧ r.framingFault = false))
    (h4 : r.chars.length < 4) : classify r = .fragment := by
  unfold classify
  rw [if_neg h, if_pos h4]

/-- From four characters on, a candidate or corrupt. -/
theorem classify_long {r : Reception} (h4 : 4 ≤ r.chars.length) :
    classify r =
      if r.chars.head? = some 0x96#8 ∧ r.chars.length ≤ 22 ∧ r.framingFault = false then .candidate r.chars
      else .corrupt := by
  have hmark : r.chars ≠ markChars := fun e => by rw [e] at h4; exact absurd h4 (by decide)
  unfold classify
  rw [if_neg fun e => hmark e.1, if_neg (Nat.not_lt.mpr h4)]

/-- Settles O20: line and characters, what the receiver gathers, what the part drives, and the classes. -/
theorem classesOfTransmissions : Obligations.ClassesOfTransmissions := by
  unfold Obligations.ClassesOfTransmissions
  refine ⟨fun driven => ⟨lineLevel_of_mem, lineLevel_of_not_mem⟩, charLevels_eq, fun cs => ?sent, fun r => ?lasted,
    fun cs c rest => ?stopBit, fun before rest n hn => ?long, fun s start cs h => ?driving, fun s h => ?silent,
    fun r => ⟨fun hc hf => classify_mark ⟨hc, hf⟩, fun h4 hm => classify_fragment hm h4, fun h4 hh h22 hf => ?candidate,
      fun h4 hbad => ?corrupt⟩⟩
  case sent =>
    exact ⟨rfl, transmission_chars cs, transmission_framingFault cs, transmission_wellFormed⟩
  case lasted =>
    intro exactly
    rw [Reception.lasted_eq]
    omega
  case stopBit =>
    intro r
    obtain ⟨hfault, more, hchars⟩ := Gathered.foldl_grows rest ⟨.held, cs ++ [c], true, false⟩
    rw [← gathered_dominantStop cs c rest] at hfault hchars
    exact ⟨hfault rfl, more, by rw [Reception.chars, hchars, List.append_assoc]; rfl⟩
  case long =>
    unfold Reception.framingFault Reception.gathered
    rw [List.foldl_append, List.foldl_append]
    exact (Gathered.foldl_grows rest _).1
      (Gathered.dominant_long (Gathered.foldl_heldFaulted before Gathered.start_heldFaulted) hn)
  case driving =>
    have hdriven : s.line.transmitter.driven = some (start, cs) := by
      obtain ⟨f, ht, rfl⟩ | ⟨ht, rfl⟩ := h <;> rw [ht] <;> rfl
    exact ⟨State.driving_before hdriven, fun k => State.driving_bit hdriven⟩
  case silent =>
    refine State.driving_silent ?_
    obtain ht | ⟨opening, f, ht⟩ := h <;> rw [ht] <;> rfl
  case candidate => rw [classify_long h4, if_pos ⟨hh, h22, hf⟩]
  case corrupt =>
    rw [classify_long h4, if_neg]
    rintro ⟨hh, h22, hf⟩
    obtain hbad | hbad | hbad := hbad
    · exact hbad hh
    · omega
    · rw [hf] at hbad; cases hbad

end Sys2Proof.Machine
end

section
/-! Frames as characters, both ways (R3 to R5, R7; O21 to O23). -/

namespace Sys2Proof.Machine

/-! ### Numbers as characters -/

theorem toNat_byte {n : Nat} (h : n < 256) : (byte n).toNat = n := by
  simp [byte, Nat.mod_eq_of_lt h]

theorem byte_toNat (b : Byte) : byte b.toNat = b := by
  simp [byte]

/-- Two characters of a number read back as that number. -/
theorem number16_byte {n : Nat} (h : n < 65536) : number16 (byte (n / 256)) (byte n) = n := by
  simp only [number16, byte, BitVec.toNat_ofNat]
  omega

theorem be16_number16 (h l : Byte) : be16 (number16 h l) = [h, l] := by
  have hl := l.isLt
  have hdiv : (h.toNat * 256 + l.toNat) / 256 = h.toNat := by omega
  have hlow : byte (h.toNat * 256 + l.toNat) = l := by
    apply BitVec.eq_of_toNat_eq
    simp only [byte, BitVec.toNat_ofNat]
    omega
  unfold be16 number16
  rw [hdiv, byte_toNat, hlow]

/-- Joined characters are the number of the two. -/
theorem toNat_append_byte {n : Nat} (x : BitVec n) (l : Byte) : (x ++ l).toNat = x.toNat * 256 + l.toNat := by
  rw [BitVec.toNat_append, ← Nat.shiftLeft_add_eq_or_of_lt l.isLt, Nat.shiftLeft_eq]

theorem be16_append (h l : Byte) : be16 (h ++ l).toNat = [h, l] := by
  rw [toNat_append_byte]
  exact be16_number16 h l

theorem append_byte (d : Word16) : byte (d.toNat / 256) ++ byte d.toNat = d := by
  apply BitVec.eq_of_toNat_eq
  rw [toNat_append_byte]
  exact number16_byte d.isLt

theorem setBytes_append (a b c d : Byte) : setBytes (a ++ b ++ c ++ d) = [a, b, c, d] := by
  have hb := b.isLt
  have hc := c.isLt
  have hd := d.isLt
  have h : (a ++ b ++ c ++ d).toNat = ((a.toNat * 256 + b.toNat) * 256 + c.toNat) * 256 + d.toNat := by
    simp only [toNat_append_byte]
  have low : ∀ (n : Nat) (x : Byte), n % 256 = x.toNat → byte n = x := fun n x hx => by
    apply BitVec.eq_of_toNat_eq
    simpa [byte] using hx
  unfold setBytes
  rw [h, low _ a (by omega), low _ b (by omega), low _ c (by omega), low _ d (by omega)]

theorem append_setBytes (s : StationSet) :
    byte (s.toNat / 2 ^ 24) ++ byte (s.toNat / 2 ^ 16) ++ byte (s.toNat / 2 ^ 8) ++ byte s.toNat = s := by
  have h := s.isLt
  apply BitVec.eq_of_toNat_eq
  simp only [toNat_append_byte, byte, BitVec.toNat_ofNat]
  omega

/-! ### Codes -/

theorem announcedOf_code (st : AnnouncedState) : announcedOf (announcedCode st) = some st := by
  cases st <;> rfl

theorem announcedCode_of {n : Nat} {st : AnnouncedState} (h : announcedOf n = some st) : announcedCode st = n := by
  unfold announcedOf at h
  split at h <;> cases h <;> rfl

theorem windowOf_code (st : WindowState) : windowOf (windowCode st) = some st := by
  cases st <;> rfl

theorem windowCode_of {n : Nat} {st : WindowState} (h : windowOf n = some st) : windowCode st = n := by
  unfold windowOf at h
  split at h <;> cases h <;> rfl

/-- The hold cause character reads back (R3). -/
theorem causesOf_byte (c : HoldCauses) : causesOf (causesByte c) = some c := by
  obtain ⟨b, p, r, l, s, w⟩ := c
  revert b p r l s w
  decide

theorem causesByte_of : ∀ {b : Byte} {c : HoldCauses}, causesOf b = some c → causesByte c = b := by
  have all : ∀ b : Byte, (causesOf b).all (fun c => decide (causesByte c = b)) = true := by decide +kernel
  intro b c h
  have hb := all b
  rw [h] at hb
  exact of_decide_eq_true hb

/-! ### The frame flags character (R3) -/

theorem getLsbD_toNat (b : Byte) (i : Nat) : b.getLsbD i = decide (b.toNat / 2 ^ i % 2 = 1) :=
  Nat.testBit_eq_decide_div_mod_eq

/-- A bit as a number. -/
def flagBit (b : Bool) : Nat := if b then 1 else 0

theorem flagBit_lt (b : Bool) : flagBit b < 2 := by
  cases b <;> decide

theorem decide_of_eq_flagBit {n : Nat} {b : Bool} (h : n = flagBit b) : decide (n = 1) = b := by
  subst h
  cases b <;> rfl

theorem flagBit_decide {n : Nat} (h : n < 2) : flagBit (decide (n = 1)) = n := by
  obtain rfl | rfl : n = 0 ∨ n = 1 := by omega
  · rfl
  · rfl

theorem mul_flagBit (k : Nat) (b : Bool) : k * flagBit b = if b = true then k else 0 := by
  cases b
  · exact Nat.mul_zero k
  · exact Nat.mul_one k

theorem riderCode_lt (k : RiderKind) : riderCode k < 4 := by
  cases k <;> decide

theorem announcedCode_lt (st : AnnouncedState) : announcedCode st < 3 := by
  cases st <;> decide

/-- The flags as a number: no two parts overlap. -/
theorem Frame.flags_toNat (f : Frame) :
    f.flags.toNat =
      128 * flagBit f.signal.isSome + 64 * flagBit (decide (f.core.state = .leaving)) + 16 * riderCode f.rider.kind +
        4 * announcedCode f.core.state + 2 * flagBit f.core.digestCurrent := by
  have hs := flagBit_lt f.signal.isSome
  have hl := flagBit_lt (decide (f.core.state = .leaving))
  have hd := flagBit_lt f.core.digestCurrent
  have hr := riderCode_lt f.rider.kind
  have ha := announcedCode_lt f.core.state
  have hsum : f.flags = byte (128 * flagBit f.signal.isSome + 64 * flagBit (decide (f.core.state = .leaving)) +
      16 * riderCode f.rider.kind + 4 * announcedCode f.core.state + 2 * flagBit f.core.digestCurrent) := by
    unfold Frame.flags
    rw [mul_flagBit, mul_flagBit, mul_flagBit]
    simp only [decide_eq_true_eq]
  rw [hsum, toNat_byte (by omega)]

/-- What a receiver reads of the flags. -/
theorem Frame.flags_read (f : Frame) :
    f.flags.getLsbD 7 = f.signal.isSome ∧ f.flags.getLsbD 6 = decide (f.core.state = .leaving) ∧
    f.flags.toNat / 16 % 4 = riderCode f.rider.kind ∧ f.flags.toNat / 4 % 4 = announcedCode f.core.state ∧
    f.flags.getLsbD 1 = f.core.digestCurrent ∧ f.flags.getLsbD 0 = false := by
  have hs := flagBit_lt f.signal.isSome
  have hl := flagBit_lt (decide (f.core.state = .leaving))
  have hd := flagBit_lt f.core.digestCurrent
  have hr := riderCode_lt f.rider.kind
  have ha := announcedCode_lt f.core.state
  simp only [getLsbD_toNat, Frame.flags_toNat]
  exact ⟨decide_of_eq_flagBit (by omega), decide_of_eq_flagBit (by omega), by omega, by omega,
    decide_of_eq_flagBit (by omega), decide_eq_false (by omega)⟩

/-- Flags that read as a frame's are that frame's flags. -/
theorem Frame.flags_of_read {f : Frame} {b : Byte} (h7 : b.getLsbD 7 = f.signal.isSome)
    (h6 : b.getLsbD 6 = decide (f.core.state = .leaving)) (hr : b.toNat / 16 % 4 = riderCode f.rider.kind)
    (ha : b.toNat / 4 % 4 = announcedCode f.core.state) (h1 : b.getLsbD 1 = f.core.digestCurrent)
    (h0 : b.getLsbD 0 = false) : f.flags = b := by
  have hb := b.isLt
  apply BitVec.eq_of_toNat_eq
  rw [Frame.flags_toNat, ← h7, ← h6, ← hr, ← ha, ← h1]
  rw [getLsbD_toNat, decide_eq_false_iff_not] at h0
  simp only [getLsbD_toNat]
  rw [flagBit_decide (by omega), flagBit_decide (by omega), flagBit_decide (by omega)]
  omega

/-! ### The signal part and the rider (R3, R4, R7) -/

/-- The ranges of a signal part's fields (R3). -/
def SignalPart.inRange (p : SignalPart) : Prop := p.sequence ≤ 15 ∧ p.budget ≤ 2000

/-- The ranges of a rider's fields (R3). -/
def Rider.inRange : Rider → Prop
  | .none => True
  | .roster _ => True
  | .profile departure floor => departure ≤ 1439 ∧ floor ≤ 400
  | .clock minute second => minute ≤ 1439 ∧ second ≤ 59

theorem Rider.inRange_iff (r : Rider) :
    r.inRange ↔ (∀ d fl, r = .profile d fl → d ≤ 1439 ∧ fl ≤ 400) ∧ ∀ m sec, r = .clock m sec → m ≤ 1439 ∧ sec ≤ 59 := by
  cases r <;> simp [Rider.inRange]

theorem Frame.valid_iff (f : Frame) :
    f.valid = true ↔
      (f.station ≤ 31 ∧ f.core.offerPower ≤ 150 ∧ f.core.offerEnergy ≤ 400 ∧ f.core.announced ≤ 255) ∧
      (∀ p, f.signal = some p → p.inRange) ∧ f.rider.inRange := by
  unfold Frame.valid SignalPart.inRange
  rw [Bool.and_eq_true, Bool.and_eq_true, decide_eq_true_eq, and_assoc]
  refine and_congr_right fun _ => and_congr ?signal ?rider
  case signal => cases f.signal <;> simp
  case rider => cases f.rider <;> simp [Rider.inRange]

theorem takeSignal_chars {sg : Option SignalPart} (h : ∀ p, sg = some p → p.inRange) (rest : List Byte) :
    takeSignal sg.isSome (signalChars sg ++ rest) = some (sg, rest) := by
  cases sg with
  | none => rfl
  | some p =>
    obtain ⟨hq, hb⟩ := h p rfl
    have hw : (byte (windowCode p.state)).toNat = windowCode p.state := toNat_byte (by cases p.state <;> decide)
    have hseq : (byte p.sequence).toNat = p.sequence := toNat_byte (by omega)
    have hbud : number16 (byte (p.budget / 256)) (byte p.budget) = p.budget := number16_byte (by omega)
    simp [takeSignal, signalChars, be16, hw, hseq, hbud, windowOf_code, hq, hb]

theorem chars_of_takeSignal {present : Bool} {cs rest : List Byte} {sg : Option SignalPart}
    (h : takeSignal present cs = some (sg, rest)) :
    sg.isSome = present ∧ cs = signalChars sg ++ rest ∧ ∀ p, sg = some p → p.inRange := by
  unfold takeSignal at h
  split at h
  case isFalse hp =>
    cases h
    exact ⟨by simpa using hp, rfl, fun _ h => nomatch h⟩
  case isTrue hp =>
    subst hp
    split at h
    case h_2 => cases h
    case h_1 tag w q bh bl rest' =>
      split at h
      case h_2 => cases h
      case h_1 state hw =>
        split at h
        case isFalse => cases h
        case isTrue hok =>
          obtain ⟨rfl, hq, hb⟩ := hok
          cases h
          refine ⟨rfl, ?_, fun p hp => by cases hp; exact ⟨hq, hb⟩⟩
          simp [signalChars, windowCode_of hw, byte_toNat, be16_number16]

theorem takeRider_chars {r : Rider} (h : r.inRange) : takeRider (riderCode r.kind) (riderChars r) = some r := by
  cases r with
  | none => rfl
  | roster heard => exact congrArg (fun s => some (Rider.roster s)) (append_setBytes heard)
  | profile d fl =>
    obtain ⟨hd, hfl⟩ := h
    have ed : number16 (byte (d / 256)) (byte d) = d := number16_byte (by omega)
    have ef : number16 (byte (fl / 256)) (byte fl) = fl := number16_byte (by omega)
    simp [takeRider, riderCode, Rider.kind, riderChars, be16, ed, ef, hd, hfl]
  | clock m sec =>
    obtain ⟨hm, hs⟩ := h
    have em : number16 (byte (m / 256)) (byte m) = m := number16_byte (by omega)
    have es : (byte sec).toNat = sec := toNat_byte (by omega)
    simp [takeRider, riderCode, Rider.kind, riderChars, be16, em, es, hm, hs]

theorem chars_of_takeRider {kind : Nat} {cs : List Byte} {r : Rider} (h : takeRider kind cs = some r) :
    kind = riderCode r.kind ∧ cs = riderChars r ∧ r.inRange := by
  unfold takeRider at h
  split at h
  case h_1 => cases h; exact ⟨rfl, rfl, trivial⟩
  case h_2 =>
    split at h
    case isFalse => cases h
    case isTrue htag =>
      cases h
      exact ⟨rfl, by simp [riderChars, setBytes_append, htag], trivial⟩
  case h_3 =>
    split at h
    case isFalse => cases h
    case isTrue hok =>
      obtain ⟨htag, hm, hfl⟩ := hok
      cases h
      exact ⟨rfl, by simp [riderChars, be16_number16, htag], hm, hfl⟩
  case h_4 =>
    split at h
    case isFalse => cases h
    case isTrue hok =>
      obtain ⟨htag, hm, hs⟩ := hok
      cases h
      exact ⟨rfl, by simp [riderChars, be16_number16, byte_toNat, htag], hm, hs⟩
  case h_5 => cases h

/-! ### The body (R3, R7) -/

theorem Frame.body_eq (f : Frame) :
    f.body =
      byte f.station :: f.flags :: causesByte f.core.causes :: byte f.core.offerPower ::
        byte (f.core.offerEnergy / 256) :: byte f.core.offerEnergy :: byte f.core.announced ::
        byte (f.core.digest.toNat / 256) :: byte f.core.digest.toNat ::
        (signalChars f.signal ++ riderChars f.rider) := rfl

theorem readBody_body {f : Frame} (h : f.valid = true) : readBody f.body = some f := by
  obtain ⟨⟨hn, hp, he, ha⟩, hsignal, hrider⟩ := (Frame.valid_iff f).mp h
  obtain ⟨h7, h6, hk, hst, h1, h0⟩ := Frame.flags_read f
  have en : (byte f.station).toNat = f.station := toNat_byte (by omega)
  have ep : (byte f.core.offerPower).toNat = f.core.offerPower := toNat_byte (by omega)
  have ea : (byte f.core.announced).toNat = f.core.announced := toNat_byte (by omega)
  have ee : number16 (byte (f.core.offerEnergy / 256)) (byte f.core.offerEnergy) = f.core.offerEnergy :=
    number16_byte (by omega)
  rw [Frame.body_eq]
  simp only [readBody, h7, h6, hk, hst, h1, h0, announcedOf_code, causesOf_byte, takeSignal_chars hsignal,
    takeRider_chars hrider, en, ep, ea, ee, append_byte]
  rw [if_pos (by simp [hn, hp, he])]

theorem body_of_readBody {cs : List Byte} {f : Frame} (h : readBody cs = some f) : f.valid = true ∧ f.body = cs := by
  unfold readBody at h
  split at h
  case h_2 => cases h
  case h_1 n flags causes power eh el announced dh dl parts =>
    split at h
    case h_2 => cases h
    case h_1 state causes' signal rest hstate hcauses hsignal =>
      split at h
      case h_2 => cases h
      case h_1 rider hrider =>
        split at h
        case isFalse => cases h
        case isTrue hok =>
          obtain ⟨hn, h0, hp, he, h6⟩ := hok
          obtain ⟨hpresent, rfl, hsignalOk⟩ := chars_of_takeSignal hsignal
          obtain ⟨hkind, rfl, hriderOk⟩ := chars_of_takeRider hrider
          have hannounced : announced.toNat ≤ 255 := by have := announced.isLt; omega
          cases h
          constructor
          · exact (Frame.valid_iff _).mpr ⟨⟨hn, hp, he, hannounced⟩, hsignalOk, hriderOk⟩
          · rw [Frame.body_eq, Frame.flags_of_read (b := flags) hpresent.symm h6 hkind (announcedCode_of hstate).symm rfl h0]
            have henergy := be16_number16 eh el
            have hdigest := be16_append dh dl
            simp only [be16, List.cons.injEq] at henergy hdigest
            simp [byte_toNat, causesByte_of hcauses, henergy, hdigest]

/-! ### Whole frames (R3 to R5, R7) -/

/-- What is sent reads back. -/
theorem readFrame_chars {f : Frame} (h : f.valid = true) : readFrame f.chars = some f := by
  have hlen : (f.body ++ be16 (crc16 f.body).toNat).length - 2 = f.body.length := by simp [be16]
  unfold Frame.chars readFrame
  dsimp only
  rw [hlen, List.take_left, List.drop_left, if_pos ⟨rfl, by simp [be16], rfl⟩]
  exact readBody_body h

/-- What reads as a good frame is what that frame is sent as. -/
theorem chars_of_readFrame {cs : List Byte} {f : Frame} (h : readFrame cs = some f) : f.valid = true ∧ f.chars = cs := by
  unfold readFrame at h
  split at h
  case h_2 => cases h
  case h_1 first rest =>
    dsimp only at h
    split at h
    case isFalse => cases h
    case isTrue hok =>
      obtain ⟨rfl, -, htrailer⟩ := hok
      obtain ⟨hvalid, hbody⟩ := body_of_readBody h
      refine ⟨hvalid, ?_⟩
      rw [← hbody] at htrailer
      unfold Frame.chars
      rw [← htrailer, hbody, List.take_append_drop]
      rfl

/-- Settles O23: each part's reader answers only what that part is sent as. -/
theorem goodFramesAreTheSentOnes : Obligations.GoodFramesAreTheSentOnes :=
  fun _ _ => chars_of_readFrame

/-! ### Length and tags (R4) -/

theorem Frame.chars_eq (f : Frame) :
    f.chars =
      0x96 :: byte f.station :: f.flags :: causesByte f.core.causes :: byte f.core.offerPower ::
        byte (f.core.offerEnergy / 256) :: byte f.core.offerEnergy :: byte f.core.announced ::
        byte (f.core.digest.toNat / 256) :: byte f.core.digest.toNat ::
        (signalChars f.signal ++ (riderChars f.rider ++ be16 (crc16 f.body).toNat)) := by
  rw [Frame.chars]
  conv => lhs; rw [Frame.body_eq]
  simp [Frame.body_eq]

theorem Frame.chars_flags (f : Frame) : f.chars.getD 2 0 = f.flags := rfl

/-- The signal part's tag stands after the core (R3). -/
theorem Frame.chars_signalTag {f : Frame} (h : f.signal.isSome = true) : f.chars[10]? = some 0x53 := by
  obtain ⟨p, hp⟩ := Option.isSome_iff_exists.mp h
  rw [Frame.chars_eq, hp]
  rfl

/-- The rider's tag stands after the core and the signal part, where there is one (R3). -/
theorem Frame.chars_riderTag {f : Frame} {tag : Byte} {cs : List Byte} (h : riderChars f.rider = tag :: cs) :
    f.chars[10 + if f.signal.isSome then 5 else 0]? = some tag := by
  rw [Frame.chars_eq, h]
  cases f.signal <;> rfl

/-- R4: length and tags by the flags. -/
def FitsFlags (cs : List Byte) : Prop :=
  let flags := cs.getD 2 0
  let signal := if flags.getLsbD 7 then 5 else 0
  let rider := flags.toNat / 16 % 4
  cs.length = 12 + signal + [0, 5, 5, 4].getD rider 0 ∧
  (flags.getLsbD 7 = true → cs[10]? = some 0x53) ∧
  (rider = 1 → cs[10 + signal]? = some 0x52) ∧ (rider = 2 → cs[10 + signal]? = some 0x50) ∧
  (rider = 3 → cs[10 + signal]? = some 0x43)

theorem Frame.chars_fit (f : Frame) : FitsFlags f.chars := by
  obtain ⟨h7, -, hr, -⟩ := Frame.flags_read f
  unfold FitsFlags
  dsimp only
  rw [Frame.chars_flags, hr, h7]
  refine ⟨?length, Frame.chars_signalTag, ?tags⟩
  case length =>
    rw [Frame.length_chars, Frame.charCount]
    cases f.rider <;> rfl
  case tags =>
    have tag := fun tag cs => Frame.chars_riderTag (f := f) (tag := tag) (cs := cs)
    cases hrider : f.rider with
    | none => exact ⟨nofun, nofun, nofun⟩
    | roster heard => exact ⟨fun _ => tag _ _ (by rw [hrider]; rfl), nofun, nofun⟩
    | profile d fl => exact ⟨nofun, fun _ => tag _ _ (by rw [hrider]; rfl), nofun⟩
    | clock m sec => exact ⟨nofun, nofun, fun _ => tag _ _ (by rw [hrider]; rfl)⟩

/-- Settles O21: of the frames sent by their parts, and of the good ones since they are what is sent. -/
theorem frameLengthsAndTags : Obligations.FrameLengthsAndTags := by
  unfold Obligations.FrameLengthsAndTags
  refine ⟨fun f => ⟨Frame.chars_fit f, ?signal, ?rider⟩, fun cs h => ?good⟩
  case signal =>
    rw [Frame.chars_flags]
    exact (Frame.flags_read f).1
  case rider =>
    obtain ⟨-, -, hr, -⟩ := Frame.flags_read f
    rw [Frame.chars_flags, hr]
    cases f.rider <;> rfl
  case good =>
    obtain ⟨f, hf⟩ := Option.ne_none_iff_exists'.mp h
    rw [← (chars_of_readFrame hf).2]
    exact Frame.chars_fit f

end Sys2Proof.Machine
end

section
/-! The CRC-16 bit by bit, and a frame's characters by position (R3, R5; O22). -/

namespace Sys2Proof.Machine

/-! ### The CRC-16 (R5) -/

/-- One bit of a character shifted into the register: the generator comes in where it differs from the leading bit. -/
def crcBit (crc : Word16) (bit : Bool) : Word16 := if crc.msb = bit then crc <<< 1 else (crc <<< 1) ^^^ 0x1021#16

/-- A character, shifted up so that its bit 7 - i leads. -/
def crcLane (c : Byte) (i : Nat) : Word16 := c.setWidth 16 <<< (8 + i)

theorem crcLane_shift (c : Byte) (i : Nat) : crcLane c i <<< 1 = crcLane c (i + 1) :=
  (BitVec.shiftLeft_add _ _ _).symm

theorem crcLane_msb (c : Byte) {i : Nat} (h : i < 8) : (crcLane c i).msb = c.getLsbD (7 - i) := by
  have hlow : ¬15 < 8 + i := by omega
  have hbit : 15 - (8 + i) = 7 - i := by omega
  have hlt : 7 - i < 16 := by omega
  rw [BitVec.msb_eq_getLsbD_last, crcLane, BitVec.getLsbD_shiftLeft, BitVec.getLsbD_setWidth]
  simp [hlow, hbit, hlt]

/-- One shift of the register with what is left of a character in it. -/
theorem crcShift_lane (crc : Word16) (c : Byte) {i : Nat} (h : i < 8) :
    crcShift (crc ^^^ crcLane c i) = crcBit crc (c.getLsbD (7 - i)) ^^^ crcLane c (i + 1) := by
  rw [crcShift_xor, crcLane_msb c h, crcLane_shift]
  rfl

/-- The shifts of a character from its bit 7 - i down: one bit each, and nothing of the character is left. -/
theorem crcShifts_lane (c : Byte) : ∀ (n : Nat) (crc : Word16) (i : Nat), n + i = 8 →
    crcShifts n (crc ^^^ crcLane c i) = (((List.range n).map fun j => c.getLsbD (n - 1 - j)).foldl crcBit crc)
  | 0, crc, i, h => by
    have hi : i = 8 := by omega
    have hout : crcLane c 8 = 0 := by
      unfold crcLane
      exact BitVec.shiftLeft_eq_zero (by decide)
    rw [hi, hout]
    simp [crcShifts]
  | n + 1, crc, i, h => by
    have hbit : 7 - i = n := by omega
    rw [crcShifts, crcShift_lane crc c (by omega), crcShifts_lane c n _ (i + 1) (by omega), hbit, List.range_succ_eq_map]
    simp only [List.map_cons, List.foldl_cons, List.map_map]
    have hrest : ∀ j ∈ List.range n, c.getLsbD (n - 1 - j) = ((fun j => c.getLsbD (n + 1 - 1 - j)) ∘ Nat.succ) j :=
      fun j _ => congrArg c.getLsbD (by simp; omega)
    rw [List.map_congr_left hrest]
    rfl

theorem crcStep_bits (crc : Word16) (c : Byte) :
    crcStep crc c = ([7, 6, 5, 4, 3, 2, 1, 0].map c.getLsbD).foldl crcBit crc := by
  show crcShifts 8 (crc ^^^ crcLane c 0) = _
  rw [crcShifts_lane c 8 crc 0 rfl]
  rfl

/-! ### A frame's characters by position (R3) -/

theorem Frame.flags_spelled (f : Frame) :
    f.flags =
      byte (128 * (if f.signal.isSome then 1 else 0) +
        (match f.core.state with | .member => 0 | .holding => 4 | .leaving => 64 + 8) +
        (match f.rider with | .none => 0 | .roster _ => 16 | .profile _ _ => 32 | .clock _ _ => 48) +
        2 * (if f.core.digestCurrent then 1 else 0)) := by
  have hstate : (if f.core.state = .leaving then 64 else 0) + 4 * announcedCode f.core.state =
      (match f.core.state with | .member => 0 | .holding => 4 | .leaving => 64 + 8) := by
    cases f.core.state <;> rfl
  have hrider : 16 * riderCode f.rider.kind =
      (match f.rider with | .none => 0 | .roster _ => 16 | .profile _ _ => 32 | .clock _ _ => 48) := by
    cases f.rider <;> rfl
  have hsignal : (if f.signal.isSome then 128 else 0) = 128 * (if f.signal.isSome then 1 else 0) := by
    split <;> rfl
  have hdigest : (if f.core.digestCurrent then 2 else 0) = 2 * (if f.core.digestCurrent then 1 else 0) := by
    split <;> rfl
  unfold Frame.flags
  rw [← hstate, ← hrider, hsignal, hdigest]
  congr 1
  omega

theorem causesByte_spelled (c : HoldCauses) :
    causesByte c =
      byte ((if c.noBus then 1 else 0) + 2 * (if c.noProfile then 1 else 0) + 4 * (if c.noReading then 1 else 0) +
        8 * (if c.lapse then 1 else 0) + 16 * (if c.stop then 1 else 0) + 32 * (if c.withdrawn then 1 else 0)) := by
  obtain ⟨b, p, r, l, s, w⟩ := c
  revert b p r l s w
  decide

/-- Settles O22: the CRC a character at a time, the layout part by part, the ranges, and the reading back. -/
theorem frameReadsBack : Obligations.FrameReadsBack := by
  unfold Obligations.FrameReadsBack
  refine ⟨⟨rfl, fun cs c => ?crc⟩, fun f => ?layout, fun f => ?ranges, fun f => readFrame_chars⟩
  case crc =>
    rw [crc16_append, crcStep_bits]
    rfl
  case layout =>
    intro flag causes signal rider covered crc
    have hbody : f.body = covered := by
      have hsignal : signalChars f.signal = signal.map (BitVec.ofNat 8) := by
        cases hs : f.signal with
        | none => simp [signal, hs, signalChars]
        | some p => simp [signal, hs, signalChars, be16, byte]; cases p.state <;> rfl
      have hrider : riderChars f.rider = rider.map (BitVec.ofNat 8) := by
        cases hr : f.rider <;> simp [rider, hr, riderChars, be16, setBytes, byte]
      rw [Frame.body_eq, Frame.flags_spelled, causesByte_spelled, hsignal, hrider, ← List.map_append]
      simp only [covered, List.map_append, List.append_assoc]
      rfl
    unfold Frame.chars
    rw [hbody]
    rfl
  case ranges =>
    rw [Frame.valid_iff, Rider.inRange_iff]
    simp only [SignalPart.inRange, and_assoc]

end Sys2Proof.Machine
end

section
/-! The Peer Table: a frame stored in its entry, with the two counts and its notice (R46 to R49, R56, R58; O24). -/

namespace Sys2Proof.Machine

/-! ### One entry written -/

theorem getD_set_same {es : List PeerEntry} {k : Nat} (h : k < es.length) (e : PeerEntry) :
    (es.set k e).getD k .reset = e := by
  simp [List.getD_eq_getElem?_getD, h]

theorem getD_set_other (es : List PeerEntry) {k j : Nat} (h : j ≠ k) (e : PeerEntry) :
    (es.set k e).getD j .reset = es.getD j .reset := by
  simp [List.getD_eq_getElem?_getD, List.getElem?_set_ne (Ne.symm h)]

/-- The entry asked is one of the table's, or beyond it the entry never heard. -/
theorem PeerTable.entry_mem_or (t : PeerTable) (k : Nat) : t.entry k ∈ t.entries ∨ t.entry k = .reset := by
  unfold PeerTable.entry
  rw [List.getD_eq_getElem?_getD]
  cases h : t.entries[k]? with
  | none => exact .inr rfl
  | some e => exact .inl (List.mem_of_getElem? h)

/-! ### A frame stored (R46 to R49, R56, R58) -/

/-- A rider touches the roster and the profile alone (R47). -/
@[simp] theorem PeerEntry.withRider_keeps (r : Rider) (e : PeerEntry) :
    (e.withRider r).presence = e.presence ∧ (e.withRider r).missCount = e.missCount ∧
    (e.withRider r).frameSince = e.frameSince ∧ (e.withRider r).core = e.core ∧
    (e.withRider r).riderKind = e.riderKind ∧ (e.withRider r).signal = e.signal ∧
    (e.withRider r).lastHeard = e.lastHeard ∧ (e.withRider r).standing = e.standing ∧
    (e.withRider r).leftSince = e.leftSince := by
  cases r <;> and_intros <;> rfl

/-- The roster after a rider: the one it carries, at age 0, or the one held (R47). -/
theorem PeerEntry.withRider_roster (r : Rider) (e : PeerEntry) :
    (∀ heard, r = .roster heard → (e.withRider r).roster = some ⟨heard, 0⟩) ∧
    ((∀ heard, r ≠ .roster heard) → (e.withRider r).roster = e.roster) := by
  cases r with
  | roster heard => exact ⟨fun _ h => by cases h; rfl, fun h => absurd rfl (h heard)⟩
  | none | profile _ _ | clock _ _ => exact ⟨nofun, fun _ => rfl⟩

/-- The profile after a rider: the one it carries, at age 0, or the one held (R47). -/
theorem PeerEntry.withRider_profile (r : Rider) (e : PeerEntry) :
    (∀ d fl, r = .profile d fl → (e.withRider r).profile = some ⟨d, fl, 0⟩) ∧
    ((∀ d fl, r ≠ .profile d fl) → (e.withRider r).profile = e.profile) := by
  cases r with
  | profile d fl => exact ⟨fun _ _ h => by cases h; rfl, fun h => absurd rfl (h d fl)⟩
  | none | roster _ | clock _ _ => exact ⟨nofun, fun _ => rfl⟩

/-- A LEAVE frame stored, whole (R49). -/
theorem State.storeFrame_leaving {f : Frame} (h : f.core.state = .leaving) (s : State) :
    s.storeFrame f =
      { s with
        peers := s.peers.departed f.station f s.timer.roundCount s.window.adopted.state
        notices :=
          if (s.peers.entry f.station).presence.isPresent then
            folded s.enabled s.timer.roundCount [peerNotice f.station (.absent .left)] s.notices
          else s.notices } := by
  unfold State.storeFrame
  rw [if_pos h]
  dsimp only
  split
  · rw [State.notice_eq, State.notice_notices]; rfl
  · rfl

/-- Any other frame stored, whole (R46, R48). -/
theorem State.storeFrame_staying {f : Frame} (h : f.core.state ≠ .leaving) (s : State) :
    s.storeFrame f =
      { s with
        peers := s.peers.stored f.station f s.timer.roundCount
        notices :=
          if (s.peers.entry f.station).presence.isPresent then s.notices
          else folded s.enabled s.timer.roundCount [peerNotice f.station .fresh] s.notices } := by
  unfold State.storeFrame
  rw [if_neg h]
  dsimp only
  split
  · rfl
  · rw [State.notice_eq, State.notice_notices]; rfl

theorem PeerEntry.leaverCounted_iff (e : PeerEntry) :
    e.leaverCounted = true ↔ e.standing.isPresent = true ∧ e.leftSince = false := by
  simp [PeerEntry.leaverCounted]

theorem PeerEntry.leaverInCensus_iff (e : PeerEntry) :
    e.leaverInCensus = true ↔ e.leftSince = false ∧ (e.standing.isPresent = true ∨ e.standing = .absent .silent) := by
  simp [PeerEntry.leaverInCensus, and_comm]

/-- The two counts after a LEAVE frame (R56, R58). -/
theorem PeerTable.departed_counts (k : Nat) (f : Frame) (round : Nat) (w : WindowState) (t : PeerTable) :
    (t.departed k f round w).liveCount =
      (if (t.entry k).leaverCounted = true then t.liveCount - 1 else t.liveCount) ∧
    (t.departed k f round w).census =
      (if w ≠ .closed ∧ (t.entry k).leaverInCensus = true then max (t.census - 1) (t.departed k f round w).liveCount
       else t.census) := ⟨rfl, rfl⟩

/-- The entry a frame leaves, and the others, by whether it carries LEAVE. -/
theorem State.storeFrame_entry {f : Frame} {s : State} (hk : f.station < s.peers.entries.length) :
    (s.storeFrame f).peers.entry f.station =
      (if f.core.state = .leaving then (s.peers.entry f.station).departed f s.timer.roundCount
       else (s.peers.entry f.station).stored f s.timer.roundCount) ∧
    ∀ k, k ≠ f.station → (s.storeFrame f).peers.entry k = s.peers.entry k := by
  by_cases h : f.core.state = .leaving
  · rw [State.storeFrame_leaving h, if_pos h]
    exact ⟨getD_set_same hk _, fun k hne => getD_set_other _ hne _⟩
  · rw [State.storeFrame_staying h, if_neg h]
    exact ⟨getD_set_same hk _, fun k hne => getD_set_other _ hne _⟩

/-- What a frame without LEAVE leaves in its entry, beside the two riders (R46, R48). -/
@[simp] theorem PeerEntry.stored_keeps (f : Frame) (round : Nat) (e : PeerEntry) :
    (e.stored f round).presence = (if e.presence.isPresent then e.presence else .fresh) ∧
    (e.stored f round).missCount = (if e.presence.isPresent then e.missCount else 0) ∧
    (e.stored f round).frameSince = true ∧ (e.stored f round).core = some f.core ∧
    (e.stored f round).riderKind = f.rider.kind ∧ (e.stored f round).signal = f.signal ∧
    (e.stored f round).lastHeard = some round ∧ (e.stored f round).standing = e.standing ∧
    (e.stored f round).leftSince = e.leftSince := by
  simp [PeerEntry.stored]

/-- The roster after such a frame: the one its rider carries, or the one held (R47). -/
theorem PeerEntry.stored_roster (f : Frame) (round : Nat) (e : PeerEntry) :
    (∀ heard, f.rider = .roster heard → (e.stored f round).roster = some ⟨heard, 0⟩) ∧
    ((∀ heard, f.rider ≠ .roster heard) → (e.stored f round).roster = e.roster) :=
  PeerEntry.withRider_roster f.rider _

/-- The profile after such a frame: the one its rider carries, or the one held (R47). -/
theorem PeerEntry.stored_profile (f : Frame) (round : Nat) (e : PeerEntry) :
    (∀ d fl, f.rider = .profile d fl → (e.stored f round).profile = some ⟨d, fl, 0⟩) ∧
    ((∀ d fl, f.rider ≠ .profile d fl) → (e.stored f round).profile = e.profile) :=
  PeerEntry.withRider_profile f.rider _

/-- Settles O24: the entry written, then LEAVE and the rest apart. -/
theorem framesAreStored : Obligations.FramesAreStored := by
  unfold Obligations.FramesAreStored
  intro f s hk e t e'
  obtain ⟨he', hothers⟩ := State.storeFrame_entry hk
  have kind : e'.riderKind = f.rider.kind := by
    refine (congrArg PeerEntry.riderKind he').trans ?_
    split
    · rfl
    · simp
  by_cases h : f.core.state = .leaving
  · have ht : t = _ := State.storeFrame_leaving h s
    have he : e' = e.departed f s.timer.roundCount := he'.trans (if_pos h)
    obtain ⟨live, census⟩ := PeerTable.departed_counts f.station f s.timer.roundCount s.window.adopted.state s.peers
    simp only [PeerEntry.leaverCounted_iff, PeerEntry.leaverInCensus_iff] at live census
    refine ⟨rfl, ?core, ?kind, ?round, ?standing, ?left, hothers, ?received, ?heard, ?authority,
      fun hne => absurd h hne,
      fun _ => ⟨?presence, ?misses, ?signal, ?roster, ?profile, ?flag, ?live, ?census, ?notices⟩, ?frame⟩
    case kind => rw [kind]; cases f.rider <;> rfl
    case left => rw [he, h]; simp [PeerEntry.departed]
    case live => rw [ht]; exact live
    case census => rw [ht]; exact census
    case core | round | standing | presence | misses | signal | roster | profile | flag => rw [he]; rfl
    case received | heard | authority => rw [ht]; rfl
    case notices | frame => rw [ht]
  · have ht : t = _ := State.storeFrame_staying h s
    have he : e' = e.stored f s.timer.roundCount := he'.trans (if_neg h)
    refine ⟨rfl, ?core, ?kind, ?round, ?standing, ?left, hothers, ?received, ?heard, ?authority,
      fun _ => ⟨?signal, ?flag, ?roster, ?rosterKept, ?profile, ?profileKept, ?live, ?census, fun hp => ?present,
        fun hp => ?absent⟩, fun hl => absurd hl h, ?frame⟩
    case kind => rw [kind]; cases f.rider <;> rfl
    case left => rw [he]; simp [h]
    case core | round | standing | signal | flag => rw [he]; simp
    case roster => rw [he]; exact (PeerEntry.stored_roster f _ e).1
    case rosterKept => rw [he]; exact (PeerEntry.stored_roster f _ e).2
    case profile => rw [he]; exact (PeerEntry.stored_profile f _ e).1
    case profileKept => rw [he]; exact (PeerEntry.stored_profile f _ e).2
    case present => rw [he, ht]; simp [hp, e]
    case absent => rw [he, ht]; simp [hp, e]
    case received | heard | authority | live | census => rw [ht]; rfl
    case frame => rw [ht]

end Sys2Proof.Machine
end

section
/-! What every step keeps of the peer table and of the census (R44, R45, R51, R52, R57, R58, R91, R94; O59). -/

namespace Sys2Proof.Machine

/-! ### Well-formed entries (R44, R51, R52) -/

/-- A present entry has been heard (R44). -/
theorem PeerEntry.wf.present_core {e : PeerEntry} (h : e.wf) (hp : e.presence.isPresent = true) : e.core ≠ none := by
  intro hc
  rw [h.1 hc] at hp
  cases hp

theorem PeerEntry.stored_wf {e : PeerEntry} {f : Frame} (h : e.wf) (hf : f.valid = true) (round : Nat) :
    (e.stored f round).wf := by
  obtain ⟨⟨-, hpower, henergy, hannounced⟩, hsignal, -⟩ := (Frame.valid_iff f).mp hf
  obtain ⟨-, -, -, hmiss, hroster, hprofile, -, -⟩ := h
  obtain ⟨presence, misses, -, core, -, signal, heard, -, -⟩ := PeerEntry.stored_keeps f round e
  refine ⟨?core, ?absent, ?heard, ?misses, ?roster, ?profile, ?figures, ?signal⟩
  case core => rw [core]; exact nofun
  case absent =>
    intro hp
    have hpresent : (e.stored f round).presence.isPresent = true := by
      rw [presence]
      split
      · assumption
      · rfl
    rw [hpresent] at hp
    cases hp
  case heard => rw [heard, core]; rfl
  case misses => rw [misses]; split <;> omega
  case roster =>
    intro r hr
    obtain ⟨carried, kept⟩ := PeerEntry.stored_roster f round e
    cases hrider : f.rider with
    | roster set => rw [carried set hrider] at hr; cases hr; exact Nat.zero_le 15
    | none | profile _ _ | clock _ _ =>
      rw [kept (by rw [hrider]; exact nofun)] at hr
      exact hroster r hr
  case profile =>
    intro p hp
    obtain ⟨carried, kept⟩ := PeerEntry.stored_profile f round e
    cases hrider : f.rider with
    | profile d fl => rw [carried d fl hrider] at hp; cases hp; exact Nat.zero_le 15
    | none | roster _ | clock _ _ =>
      rw [kept (by rw [hrider]; exact nofun)] at hp
      exact hprofile p hp
  case figures =>
    intro c hc
    rw [core] at hc
    cases hc
    exact ⟨hpower, henergy, hannounced⟩
  case signal => rw [signal]; exact hsignal

theorem PeerEntry.departed_wf {e : PeerEntry} {f : Frame} (h : e.wf) (hf : f.valid = true) (round : Nat) :
    (e.departed f round).wf := by
  obtain ⟨⟨-, hfigures⟩, -, -⟩ := (Frame.valid_iff f).mp hf
  obtain ⟨-, -, -, hmiss, -⟩ := h
  refine ⟨nofun, fun _ => ⟨rfl, rfl, rfl, rfl⟩, rfl, hmiss, nofun, nofun, fun c hc => ?_, nofun⟩
  cases hc
  exact hfigures

/-- A rider held after an ageing is at most 15 rounds old (R52). -/
theorem olderAge_le {age g : Nat} (h : olderAge age = some g) : g ≤ 15 := by
  unfold olderAge at h
  split at h
  · cases h
  · cases h; omega

theorem Roster.aged_age {o : Option Roster} {r : Roster} (h : o.bind Roster.aged = some r) : r.age ≤ 15 := by
  obtain ⟨r', -, h⟩ := Option.bind_eq_some_iff.mp h
  rw [Roster.aged_eq] at h
  obtain ⟨g, hg, rfl⟩ := Option.map_eq_some_iff.mp h
  exact olderAge_le hg

theorem PeerProfile.aged_age {o : Option PeerProfile} {p : PeerProfile} (h : o.bind PeerProfile.aged = some p) :
    p.age ≤ 15 := by
  obtain ⟨p', -, h⟩ := Option.bind_eq_some_iff.mp h
  rw [PeerProfile.aged_eq] at h
  obtain ⟨g, hg, rfl⟩ := Option.map_eq_some_iff.mp h
  exact olderAge_le hg

theorem PeerEntry.aged_wf {e : PeerEntry} (h : e.wf) : e.aged.wf := by
  have hcore := h.present_core
  obtain ⟨hreset, habsent, hheard, hmiss, hroster, hprofile, hfigures, hsignal⟩ := h
  have hle := e.agedMisses_le
  cases hp : e.presence.isPresent with
  | false =>
    rw [PeerEntry.aged_absent hp]
    refine ⟨fun hc => ?_, habsent, hheard, hmiss, hroster, hprofile, hfigures, hsignal⟩
    rw [hreset hc]
    rfl
  | true =>
    by_cases h8 : e.agedMisses = 8
    · have hflag : e.frameSince = false := by
        cases hflag : e.frameSince with
        | false => rfl
        | true => simp [PeerEntry.agedMisses, hflag] at h8
      rw [PeerEntry.aged_silent hp h8]
      exact ⟨fun hc => absurd hc (hcore hp), fun _ => ⟨rfl, rfl, rfl, hflag⟩, hheard, hle, nofun, nofun, hfigures,
        nofun⟩
    · rw [PeerEntry.aged_heard hp h8]
      refine ⟨fun hc => absurd hc (hcore hp), fun ha => ?_, hheard, hle, fun r => Roster.aged_age,
        fun p => PeerProfile.aged_age, hfigures, hsignal⟩
      rw [presenceOfMisses_isPresent, decide_eq_false_iff_not] at ha
      omega

/-- Clearing the flag of an entry keeps it well-formed (R54). -/
theorem PeerEntry.wf.flagCleared {e : PeerEntry} (h : e.wf) : { e with frameSince := false : PeerEntry }.wf := by
  obtain ⟨hreset, habsent, hrest⟩ := h
  refine ⟨fun hc => ?_, fun ha => ?_, hrest⟩
  · rw [hreset hc]; rfl
  · obtain ⟨hs, hr, hp, -⟩ := habsent ha
    exact ⟨hs, hr, hp, rfl⟩

/-- Each entry after an ageing was one before, aged or as it was. -/
theorem mem_ageEntries {own : Option Nat} {e : PeerEntry} : ∀ {k : Nat} {es : List PeerEntry},
    e ∈ ageEntries own k es → ∃ e₀ ∈ es, e = e₀.aged ∨ e = e₀
  | _, [], h => nomatch h
  | k, e₁ :: es, h => by
    rw [ageEntries, List.mem_cons] at h
    obtain h | h := h
    · refine ⟨e₁, List.mem_cons_self, ?_⟩
      split at h
      · exact .inl h
      · exact .inr h
    · obtain ⟨e₀, hmem, he⟩ := mem_ageEntries h
      exact ⟨e₀, List.mem_cons_of_mem _ hmem, he⟩

theorem PeerTable.afterAgeing_wf {t : PeerTable} (h : ∀ e ∈ t.entries, e.wf) (c : StationControl) :
    ∀ e ∈ (t.afterAgeing c).entries, e.wf := by
  intro e he
  obtain ⟨a, ha, rfl⟩ := List.mem_map.mp (show e ∈ clearFlags (ageEntries c.number 0 t.entries) from he)
  obtain ⟨e₀, hmem, rfl | rfl⟩ := mem_ageEntries ha
  · exact (PeerEntry.aged_wf (h e₀ hmem)).flagCleared
  · exact (h _ hmem).flagCleared

/-! ### The invariant, and what leaves it alone -/

/-- The peer table well-formed and the census bounded below: what O59 says every step keeps. -/
def PeersWf (s : State) : Prop := PeerTableWf s ∧ CensusBound s

/-- Two states alike in what the invariant reads. -/
def SamePeers (s t : State) : Prop :=
  t.peers = s.peers ∧ t.control.number = s.control.number ∧ t.window.own = s.window.own ∧
  t.window.adopted = s.window.adopted

theorem PeersWf.of_same {s t : State} (hs : PeersWf s) (h : SamePeers s t) : PeersWf t := by
  obtain ⟨hp, hn, ho, ha⟩ := h
  unfold PeersWf PeerTableWf CensusBound at hs ⊢
  rw [hp, hn, ho, ha]
  exact hs

theorem SamePeers.trans {s t u : State} (h : SamePeers s t) (h' : SamePeers t u) : SamePeers s u := by
  obtain ⟨hp, hn, ho, ha⟩ := h
  obtain ⟨hp', hn', ho', ha'⟩ := h'
  exact ⟨hp'.trans hp, hn'.trans hn, ho'.trans ho, ha'.trans ha⟩

theorem SamePeers.refl (s : State) : SamePeers s s := ⟨rfl, rfl, rfl, rfl⟩

/-- A part at its power-on values, but for what the invariant does not read. -/
theorem PeersWf.of_reset {t : State} (h : SamePeers State.reset t) : PeersWf t :=
  PeersWf.of_same ⟨State.reset_peerTableWf, State.reset_censusBound⟩ h

theorem State.offlineWith_same (k : Byte) (fs : List Byte) (q : List NoticeEntry) (s : State) :
    SamePeers State.reset (s.offlineWith k fs q) := ⟨rfl, rfl, rfl, rfl⟩

theorem State.advance_same (dt : Nat) (s : State) : SamePeers s (s.advance dt) := by
  simp [SamePeers]

theorem State.settle_same (s : State) : SamePeers s s.settle := ⟨rfl, rfl, rfl, rfl⟩

theorem State.advance_stationWf {s : State} (h : StationWf s) (dt : Nat) : StationWf (s.advance dt) := by
  unfold StationWf at h ⊢
  simpa using h

/-- An anchor is held off OFFLINE alone, and with it an own number of 31 or less (R21). -/
theorem StationWf.number_of_anchor {s : State} (h : StationWf s) {a : Instant} (ha : s.timer.anchor = some a) :
    ∃ n, s.control.number = some n ∧ n < 32 := by
  obtain ⟨hoff, hon, -⟩ := h
  refine (hon fun hst => ?_).1
  obtain ⟨-, -, -, hnone, -⟩ := hoff hst
  rw [hnone] at ha
  cases ha

/-- A change of a state that keeps the invariant at a well-formed station. -/
def KeepsPeers (f : State → State) : Prop := ∀ s, StationWf s → PeersWf s → PeersWf (f s)

theorem KeepsPeers.of_same {f : State → State} (h : ∀ s, SamePeers s (f s)) : KeepsPeers f :=
  fun s _ hs => hs.of_same (h s)

theorem KeepsPeers.of_reset {f : State → State} (h : ∀ s, SamePeers State.reset (f s)) : KeepsPeers f :=
  fun s _ _ => PeersWf.of_reset (h s)

theorem KeepsPeers.whenRunning {f : State → State} (h : KeepsPeers f) : KeepsPeers (State.whenRunning f) := by
  intro s hs hw
  unfold State.whenRunning
  split
  · exact h s hs hw
  · exact hw

section
variable {dt : Nat} {f : State → State} {s t : State}

theorem PeersWf.of_happensAtInputs (h : happensAtInputs dt f s = .next t) (hs : StationWf s) (hw : PeersWf s)
    (hf : KeepsPeers f) : PeersWf t := by
  cases h
  exact (hf _ (State.advance_stationWf hs dt) (hw.of_same (State.advance_same dt s))).of_same (State.settle_same _)

theorem PeersWf.of_happens (h : happens dt f s = .next t) (hs : StationWf s) (hw : PeersWf s) (hf : KeepsPeers f) :
    PeersWf t :=
  PeersWf.of_happensAtInputs h hs hw hf.whenRunning

end

/-! ### Rounds (R14, R81, R86, R91) -/

/-- A step of the own window that leaves it CLOSED leaves it without budget (R88 to R91). -/
theorem stepWindow_closed (c : Configuration) (i : StepInput) (w : OwnWindow) :
    (stepWindow c i w).state = .closed → (stepWindow c i w).budget = 0 := by
  cases hw : w.state with
  | closed =>
    simp only [stepWindow, hw, stepClosed]
    split
    · exact nofun
    · exact fun _ => rfl
  | opened =>
    simp only [stepWindow, hw, stepOpen]
    split
    · exact nofun
    · exact nofun
  | winding =>
    simp only [stepWindow, hw, stepWinding]
    split
    · exact nofun
    · split
      · exact fun _ => rfl
      · exact nofun

/-- A change of the window that leaves the adopted one, and the own one without budget where it is CLOSED. -/
theorem PeersWf.of_window {s t : State} (hs : PeersWf s) (hp : t.peers = s.peers)
    (hn : t.control.number = s.control.number) (ha : t.window.adopted = s.window.adopted)
    (ho : t.window.own = s.window.own ∨ (t.window.own.state = .closed → t.window.own.budget = 0)) : PeersWf t := by
  obtain ⟨htable, hown, hadopted, hcensus⟩ := hs
  refine ⟨?_, ?_, by rw [ha, hp]; exact hadopted, by rw [ha, hp]; exact hcensus⟩
  · unfold PeerTableWf at htable ⊢
    rw [hp, hn]
    exact htable
  · obtain ho | ho := ho
    · rw [ho]; exact hown
    · exact ho

theorem State.windowSample_keepsPeers (anchor : Instant) {s : State} (hs : PeersWf s) :
    PeersWf (s.windowSample anchor) := by
  cases hc : s.control.configuration with
  | none => rw [State.windowSample_none anchor (.inl hc)]; exact hs
  | some c =>
    by_cases hstrap : s.control.signalStrap = some true
    · cases hruns : s.control.state.runs with
      | false => rw [State.windowSample_none anchor (.inr (.inr hruns))]; exact hs
      | true =>
        obtain ⟨-, -, -, control, peers, -⟩ := State.windowSample_keeps anchor s
        have window := State.windowSample_taken anchor hc hstrap hruns
        refine hs.of_window peers (congrArg StationControl.number control) (by rw [window]) ?_
        rw [window]
        dsimp only
        split
        · exact .inr (stepWindow_closed _ _ _)
        · exact .inl rfl
    · rw [State.windowSample_none anchor (.inr (.inl hstrap))]; exact hs

theorem State.openRound_keepsPeers (anchor : Instant) {s : State} (hs : PeersWf s) : PeersWf (s.openRound anchor) := by
  rw [State.openRound_eq]
  refine State.windowSample_keepsPeers anchor (hs.of_same ?_)
  simp [SamePeers, State.opened]

theorem State.sendMark_same (a : Instant) (idle : Bool) (s : State) : SamePeers s (s.sendMark a idle) := by
  simp [SamePeers]

theorem State.timerExpires_keepsPeers (idle : Bool) : KeepsPeers (State.timerExpires idle) := by
  intro s _ hs
  unfold State.timerExpires
  split
  · dsimp only
    split
    · exact (State.openRound_keepsPeers _ hs).of_same (State.sendMark_same _ idle _)
    · exact hs
  · exact hs

theorem State.slotOpens_same (idle : Bool) (s : State) : SamePeers s (s.slotOpens idle) := by
  unfold State.slotOpens
  dsimp only
  repeat' split
  all_goals exact SamePeers.refl s

/-! ### The allocation point (R51 to R57, R94) -/

theorem PeerTable.afterAgeing_length (t : PeerTable) (c : StationControl) :
    (t.afterAgeing c).entries.length = t.entries.length := by
  show (clearFlags _).length = _
  simp [clearFlags, PeerTable.agedEntries_length]

/-- The own entry is not aged (R45). -/
theorem PeerTable.afterAgeing_own {t : PeerTable} (h32 : t.entries.length = 32) {c : StationControl} {n : Nat}
    (hc : c.number = some n) (hn : n < 32) (hown : t.entry n = .reset) : (t.afterAgeing c).entry n = .reset := by
  rw [PeerTable.afterAgeing_entry c h32 hn, if_neg (by simp [isPeer_iff, hc]), hown]
  rfl

/-- A CLOSED window adopted has budget 0 (R94). -/
theorem adoptedFrom_closed {own : Option Nat} {w : OwnWindow} (hw : w.state = .closed → w.budget = 0)
    (authority : Option Nat) (t : PeerTable) (held : SignalPart) :
    (adoptedFrom own w authority t held).state = .closed → (adoptedFrom own w authority t held).budget = 0 := by
  cases authority with
  | none => exact fun _ => rfl
  | some k =>
    by_cases hk : own = some k
    · rw [adoptedFrom_own hk]
      exact hw
    · cases hp : (t.entry k).signal with
      | some p =>
        rw [adoptedFrom_peer hk hp]
        exact fun h => if_pos h
      | none =>
        have hnone : adoptedFrom own w (some k) t held = ⟨.closed, held.sequence, 0⟩ := by
          simp [adoptedFrom, Ne.symm hk, hp]
        rw [hnone]
        exact fun _ => rfl

/-- The census follows the adopted window: 0 while it is CLOSED, else no smaller than the live count (R57). -/
theorem censusOf_bound (held adopted : SignalPart) (census live : Nat) :
    (adopted.state = .closed → censusOf held adopted census live = 0) ∧
    (adopted.state ≠ .closed → live ≤ censusOf held adopted census live) := by
  unfold censusOf
  constructor
  · exact fun h => if_pos h
  · intro h
    rw [if_neg h]
    split
    · exact Nat.le_refl live
    · exact Nat.le_max_right census live

/-- Joining moves nothing of Station Control but the state (R26). -/
theorem State.joinIfDue_control (s : State) :
    s.joinIfDue.control = { s.control with state := s.joinIfDue.control.state } := by
  unfold State.joinIfDue
  split
  · simp
  · rfl

theorem State.joinIfDue_number (s : State) : s.joinIfDue.control.number = s.control.number := by
  rw [State.joinIfDue_control]

theorem State.allocate_number (order : Arrival) (s : State) :
    (s.allocate order).control.number = s.control.number := by
  simp [State.allocate, State.joinIfDue_number, (State.judgeIsolation_control _).1]

theorem State.allocate_keepsPeers (order : Arrival) {s : State} {n : Nat} (hn : s.control.number = some n)
    (hlt : n < 32) (hs : PeersWf s) : PeersWf (s.allocate order) := by
  obtain ⟨⟨h32, hwf, hown, -⟩, hclosed, -⟩ := hs
  have peers := State.allocate_peers order s
  have window := State.allocate_window order s
  have number := State.allocate_number order s
  obtain ⟨hzero, hlive⟩ := censusOf_bound s.window.adopted s.adoptedNext s.peers.census
    (s.peers.afterAgeing s.control).liveCount
  refine ⟨⟨?length, ?wf, ?own, ?unnumbered⟩, ?ownClosed, ?closed, ?bound⟩
  case length =>
    rw [peers]
    exact (PeerTable.afterAgeing_length _ _).trans h32
  case wf =>
    rw [peers]
    exact PeerTable.afterAgeing_wf hwf s.control
  case own =>
    intro k hk
    obtain rfl : n = k := Option.some.inj (hn.symm.trans (number.symm.trans hk))
    rw [peers]
    exact PeerTable.afterAgeing_own h32 hn hlt (hown n hn)
  case unnumbered =>
    intro hnone
    rw [number, hn] at hnone
    cases hnone
  case ownClosed => rw [window]; exact hclosed
  case closed =>
    rw [window, peers]
    exact fun h => ⟨hzero h, adoptedFrom_closed hclosed _ _ _ h⟩
  case bound => rw [window, peers]; exact hlive

theorem State.allocationPoint_keepsPeers (order : Arrival) : KeepsPeers (State.allocationPoint order) := by
  intro s hs hw
  unfold State.allocationPoint
  split
  · rename_i a ha
    obtain ⟨n, hn, hlt⟩ := hs.number_of_anchor ha
    split
    · exact State.allocate_keepsPeers order hn hlt hw
    · exact hw
  · exact hw

theorem State.runCompletes_same (s : State) : SamePeers s s.runCompletes := by
  unfold State.runCompletes
  repeat' split
  all_goals simp [SamePeers]

/-! ### Frames heard (R46 to R49, R56, R58) -/

theorem forall_mem_set {α : Type} {p : α → Prop} {l : List α} (h : ∀ a ∈ l, p a) {k : Nat} {b : α} (hb : p b) :
    ∀ a ∈ l.set k b, p a := by
  intro a ha
  obtain ha | rfl := List.mem_or_eq_of_mem_set ha
  · exact h a ha
  · exact hb

theorem PeerTable.entry_wf {t : PeerTable} (h : ∀ e ∈ t.entries, e.wf) (k : Nat) : (t.entry k).wf := by
  obtain hmem | hreset := t.entry_mem_or k
  · exact h _ hmem
  · rw [hreset]; exact PeerEntry.reset_wf

/-- A LEAVE frame lowers the census with the live count, and never below it (R56, R58). -/
theorem PeerTable.departed_census_bound (k : Nat) (f : Frame) (round : Nat) {w : WindowState} {t : PeerTable}
    (hw : w ≠ .closed) (h : t.liveCount ≤ t.census) :
    (t.departed k f round w).liveCount ≤ (t.departed k f round w).census := by
  obtain ⟨live, census⟩ := PeerTable.departed_counts k f round w t
  have counted : (t.entry k).leaverCounted = true → (t.entry k).leaverInCensus = true := by
    rw [PeerEntry.leaverCounted_iff, PeerEntry.leaverInCensus_iff]
    exact fun ⟨hp, hl⟩ => ⟨hl, .inl hp⟩
  by_cases hin : (t.entry k).leaverInCensus = true
  · rw [census, if_pos ⟨hw, hin⟩]
    exact Nat.le_max_right _ _
  · rw [census, if_neg fun hc => hin hc.2, live, if_neg (mt counted hin)]
    exact h

theorem State.storeFrame_keepsPeers {f : Frame} {s : State} (hf : f.valid = true) {n : Nat}
    (hn : s.control.number = some n) (hne : n ≠ f.station) (hs : PeersWf s) : PeersWf (s.storeFrame f) := by
  obtain ⟨⟨h32, hwf, hown, -⟩, hclosed, hadopted, hcensus⟩ := hs
  have hk : f.station < s.peers.entries.length := by
    obtain ⟨⟨hstation, -⟩, -⟩ := (Frame.valid_iff f).mp hf
    omega
  have entry := PeerTable.entry_wf hwf f.station
  obtain ⟨-, hothers⟩ := State.storeFrame_entry hk
  have number : (s.storeFrame f).control.number = some n := by simp [hn]
  have window : (s.storeFrame f).window = s.window := by simp
  have own : ∀ k, (s.storeFrame f).control.number = some k → (s.storeFrame f).peers.entry k = .reset := by
    intro k hk
    obtain rfl : n = k := Option.some.inj (number.symm.trans hk)
    rw [hothers n hne]
    exact hown n hn
  have unnumbered : (s.storeFrame f).control.number ≠ none := by rw [number]; nofun
  refine ⟨⟨?length, ?wf, own, fun h => absurd h unnumbered⟩, ?ownClosed, ?closed, ?bound⟩
  case ownClosed => rw [window]; exact hclosed
  case length =>
    by_cases h : f.core.state = .leaving
    · rw [State.storeFrame_leaving h]; exact List.length_set.trans h32
    · rw [State.storeFrame_staying h]; exact List.length_set.trans h32
  case wf =>
    by_cases h : f.core.state = .leaving
    · rw [State.storeFrame_leaving h]; exact forall_mem_set hwf (PeerEntry.departed_wf entry hf _)
    · rw [State.storeFrame_staying h]; exact forall_mem_set hwf (PeerEntry.stored_wf entry hf _)
  case closed =>
    by_cases h : f.core.state = .leaving
    · rw [State.storeFrame_leaving h]
      intro hc
      obtain ⟨-, census⟩ := PeerTable.departed_counts f.station f s.timer.roundCount s.window.adopted.state s.peers
      obtain ⟨hzero, hbudget⟩ := hadopted hc
      exact ⟨(census.trans (if_neg fun hopen => hopen.1 hc)).trans hzero, hbudget⟩
    · rw [State.storeFrame_staying h]; exact hadopted
  case bound =>
    by_cases h : f.core.state = .leaving
    · rw [State.storeFrame_leaving h]
      exact fun hc => PeerTable.departed_census_bound _ _ _ hc (hcensus hc)
    · rw [State.storeFrame_staying h]; exact hcensus

theorem State.reanchor_same (a : Instant) (s : State) : SamePeers s (s.reanchor a) := by
  simp [SamePeers]

theorem State.countCorrupt_same (s : State) : SamePeers s s.countCorrupt := ⟨rfl, rfl, rfl, rfl⟩

/-- A CLOCK rider judged moves the depot clock alone of the window (R76). -/
theorem State.judgeClock_same (f : Frame) (s : State) : SamePeers s (s.judgeClock f) := by
  unfold State.judgeClock
  split
  · dsimp only
    repeat' split
    all_goals simp [SamePeers]
  · exact SamePeers.refl s

theorem State.deliverPeer_keepsPeers {f : Frame} (hf : f.valid = true) (start : Instant) {s : State} (hs : StationWf s)
    (hne : s.control.number ≠ some f.station) (hw : PeersWf s) : PeersWf (s.deliverPeer f start) := by
  cases ha : s.timer.anchor with
  | none => simp only [State.deliverPeer, ha]; exact hw
  | some a =>
    obtain ⟨n, hn, -⟩ := hs.number_of_anchor ha
    have hother : n ≠ f.station := fun e => hne (e ▸ hn)
    have stored : ∀ t, SamePeers s t → PeersWf (t.storeFrame f) := by
      intro t ht
      have number : t.control.number = s.control.number := ht.2.1
      exact State.storeFrame_keepsPeers hf (number.trans hn) hother (hw.of_same ht)
    rw [State.deliverPeer_eq f start ha]
    dsimp only
    repeat' split
    · exact (stored s (SamePeers.refl s)).of_same (State.judgeClock_same f _)
    · exact (stored _ (State.reanchor_same _ s)).of_same (State.judgeClock_same f _)
    · exact stored _ (State.countCorrupt_same s)

theorem State.enterFaulted_same (e : Evidence) (grantFirst : Bool) (s : State) :
    SamePeers s (s.enterFaulted e grantFirst) := by
  refine ⟨by simp, ?_, by simp, by simp⟩
  simp [State.enterFaulted]

theorem State.duplicateHeard_same (grantFirst : Bool) (s : State) : SamePeers s (s.duplicateHeard grantFirst) := by
  unfold State.duplicateHeard
  split
  · exact State.enterFaulted_same _ _ s
  · exact SamePeers.refl s

theorem State.heardMark_keepsPeers (start : Instant) {s : State} (hs : PeersWf s) : PeersWf (s.heardMark start) := by
  unfold State.heardMark
  repeat' split
  · refine State.openRound_keepsPeers start (hs.of_same ?_)
    simp [SamePeers]
  · exact State.openRound_keepsPeers start hs
  · exact hs.of_same (State.countCorrupt_same s)
  · exact hs

theorem State.transmissionEnds_keepsPeers (r : Reception) (grantFirst : Bool) :
    KeepsPeers (State.transmissionEnds r grantFirst) := by
  intro s hs hw
  unfold State.transmissionEnds State.hear State.deliver
  dsimp only
  repeat' split
  · exact State.heardMark_keepsPeers _ hw
  · exact hw
  · exact hw.of_same (State.countCorrupt_same s)
  · exact hw.of_same (State.duplicateHeard_same grantFirst s)
  · rename_i hread hne
    exact State.deliverPeer_keepsPeers (chars_of_readFrame hread).1 _ hs (Ne.symm hne) hw
  · exact hw.of_same (State.countCorrupt_same s)
  · exact hw

/-! ### Own frames (R12, R37, R39, R40) -/

theorem State.leaveNotSent_keepsPeers (f : Frame) {s : State} (hs : PeersWf s) : PeersWf (s.leaveNotSent f) := by
  unfold State.leaveNotSent
  split
  · exact PeersWf.of_reset (State.offlineWith_same _ _ _ s)
  · exact hs

theorem State.withdrawalSent_same (f : Frame) (s : State) : SamePeers s (s.withdrawalSent f) := by
  unfold State.withdrawalSent
  split
  · simp [SamePeers]
  · exact SamePeers.refl s

theorem State.outcomeSent_keepsPeers (f : Frame) {s : State} (hs : PeersWf s) : PeersWf (s.outcomeSent f) := by
  unfold State.outcomeSent
  dsimp only
  split
  · exact PeersWf.of_reset (State.offlineWith_same _ _ _ _)
  · exact hs.of_same (SamePeers.trans ⟨rfl, rfl, rfl, rfl⟩ (State.withdrawalSent_same f _))

theorem State.outcomeCut_keepsPeers (f : Frame) (grantFirst : Bool) {s : State} (hs : PeersWf s) :
    PeersWf (s.outcomeCut f grantFirst) := by
  unfold State.outcomeCut
  dsimp only
  split
  · exact hs.of_same (SamePeers.trans ⟨rfl, rfl, rfl, rfl⟩ (State.enterFaulted_same _ _ _))
  · refine State.leaveNotSent_keepsPeers f ?_
    exact hs

/-! ### The post link (R23, R38, R42, R155) -/

theorem State.takeStart_keepsPeers (straps : Straps) (fields : List Byte) {s : State} (hs : StationWf s)
    (hoff : s.control.state = .offline) (hw : PeersWf s) : PeersWf (s.takeStart straps fields) := by
  obtain ⟨hnone, -⟩ := hs.1 hoff
  obtain ⟨⟨h32, hwf, -, hreset⟩, hclosed, hrest⟩ := hw
  have entry : ∀ k, s.peers.entry k = .reset := fun k => (s.peers.entry_mem_or k).elim (hreset hnone _) id
  rw [State.takeStart_eq]
  refine State.windowSample_keepsPeers _ ⟨⟨h32, hwf, fun n _ => entry n, nofun⟩, hclosed, hrest⟩

theorem State.handle_keepsPeers {k : RequestKind} (straps : Straps) (fields : List Byte) {s : State} (hs : StationWf s)
    (hk : kindAllowed k s.control.state = true) (hw : PeersWf s) : PeersWf (s.handle k straps fields) := by
  cases k with
  | start => exact State.takeStart_keepsPeers straps fields hs (of_decide_eq_true hk) hw
  | restart => exact PeersWf.of_reset (State.offlineWith_same _ _ _ s)
  | profile =>
    refine hw.of_same ?_
    show SamePeers s (s.takeProfile fields)
    unfold State.takeProfile
    split <;> simp [SamePeers]
  | reading => exact hw.of_same (by simp [SamePeers, State.handle, State.takeReading])
  | avail =>
    refine hw.of_same ?_
    unfold State.handle
    dsimp only
    split <;> simp [SamePeers, State.takeAvailable, State.takeWithdrawn]
  | takeNotice =>
    refine hw.of_same ?_
    show SamePeers s s.takeHead
    unfold State.takeHead
    split <;> simp [SamePeers]
  | peer | status | leave => exact hw.of_same ⟨rfl, rfl, rfl, rfl⟩

theorem State.transact_keepsPeers (straps : Straps) (selector : Byte) (bytes : List Byte) :
    KeepsPeers (State.transact straps selector bytes) := by
  intro s hs hw
  unfold State.transact
  split
  · unfold State.writeTransaction State.takeWrite
    dsimp only
    repeat' split
    · exact hw
    · exact hw
    · rename_i hpass
      obtain ⟨-, -, -, hallowed, -⟩ := checkRequest_pass hpass
      exact State.handle_keepsPeers straps _ (s := State.openRequest _ _ _ (State.sendsOpen [] _ s)) hs hallowed hw
    · exact hw
    · exact hw
  · exact hw.of_same (by simp [SamePeers])
  · exact hw.of_same (by simp [SamePeers])
  · exact hw

/-! ### Inputs (R33, R34, R110) -/

theorem State.plugFell_same (s : State) : SamePeers s s.plugFell := by
  unfold State.plugFell
  split <;> simp [SamePeers]

theorem State.plugRose_same (s : State) : SamePeers s s.plugRose := by
  unfold State.plugRose
  split <;> simp [SamePeers]

theorem State.stopPressed_same (s : State) : SamePeers s s.stopPressed := by
  unfold State.stopPressed
  repeat' split
  all_goals simp [SamePeers]

theorem State.stopFreed_same (s : State) : SamePeers s s.stopFreed := by
  unfold State.stopFreed
  repeat' split
  all_goals simp [SamePeers]

theorem State.readingLapses_same (s : State) : SamePeers s s.readingLapses := by
  unfold State.readingLapses
  repeat' split
  all_goals simp [SamePeers]

theorem State.lineWentIdle_same (s : State) : SamePeers s s.lineWentIdle := by
  unfold State.lineWentIdle
  split <;> exact ⟨rfl, rfl, rfl, rfl⟩

theorem State.periodStarts_same (s : State) : SamePeers s s.periodStarts := by
  obtain h | ⟨p, h⟩ := s.periodStarts_eq <;> rw [h] <;> exact ⟨rfl, rfl, rfl, rfl⟩

/-- A change at the inputs, and what follows of it while the part works. -/
theorem State.whenRunning_same {f : State → State} (hf : ∀ s, SamePeers s (f s)) {s : State} (t : State)
    (h : SamePeers s t) :
    SamePeers s (State.whenRunning f t) := by
  unfold State.whenRunning
  split
  · exact h.trans (hf t)
  · exact h

/-! ### Every step -/

theorem exec_keepsPeers {c : Instr} {s t : State} (hs : StationWf s) (hw : PeersWf s) (h : exec c s = .next t) :
    PeersWf t := by
  cases c with
  | powerOn | powerLoss | resetAssert =>
    simp only [exec, execPowerOn, execPowerLoss, execResetAssert] at h
    exact PeersWf.of_happensAtInputs h hs hw (.of_reset fun _ => ⟨rfl, rfl, rfl, rfl⟩)
  | resetRelease =>
    simp only [exec, execResetRelease] at h
    refine PeersWf.of_happensAtInputs h hs hw fun s _ hw => ?_
    split
    · exact PeersWf.of_reset ⟨rfl, rfl, rfl, rfl⟩
    · exact hw
  | ignoredTransaction | writeRequest | readResponse | readFlags | start | profile | reading | availAvailable
  | availWithdrawn | takeNotice | peer | status | leave | restart =>
    exact PeersWf.of_happens h hs hw (State.transact_keepsPeers _ _ _)
  | transmissionEnd dt r first => exact PeersWf.of_happens h hs hw (State.transmissionEnds_keepsPeers r first)
  | roundTimerExpiry dt idle => exact PeersWf.of_happens h hs hw (State.timerExpires_keepsPeers idle)
  | ownSlotOpening dt idle => exact PeersWf.of_happens h hs hw (.of_same (State.slotOpens_same idle))
  | allocationPoint dt order => exact PeersWf.of_happens h hs hw (State.allocationPoint_keepsPeers order)
  | runCompletion => exact PeersWf.of_happens h hs hw (.of_same State.runCompletes_same)
  | frameStartDeferred =>
    refine PeersWf.of_happens h hs hw fun s _ hw => ?_
    repeat' split
    all_goals exact hw
  | slotStartDeadline =>
    refine PeersWf.of_happens h hs hw fun s _ hw => ?_
    repeat' split
    · refine State.leaveNotSent_keepsPeers _ ?_
      exact hw
    all_goals exact hw
  | frameSent =>
    refine PeersWf.of_happens h hs hw fun s _ hw => ?_
    repeat' split
    · exact State.outcomeSent_keepsPeers _ hw
    all_goals exact hw
  | readbackMismatch dt first =>
    refine PeersWf.of_happens h hs hw fun s _ hw => ?_
    repeat' split
    · exact State.outcomeCut_keepsPeers _ first hw
    all_goals exact hw
  | plugFall =>
    simp only [exec, execPlugFall] at h
    refine PeersWf.of_happensAtInputs h hs hw (.of_same fun s => ?_)
    split
    · exact State.whenRunning_same State.plugFell_same _ ⟨rfl, rfl, rfl, rfl⟩
    · exact SamePeers.refl s
  | plugRise =>
    simp only [exec, execPlugRise] at h
    refine PeersWf.of_happensAtInputs h hs hw (.of_same fun s => ?_)
    split
    · exact SamePeers.refl s
    · exact State.whenRunning_same State.plugRose_same _ ⟨rfl, rfl, rfl, rfl⟩
  | stopActive =>
    simp only [exec, execStopActive] at h
    refine PeersWf.of_happensAtInputs h hs hw (.of_same fun s => ?_)
    split
    · exact SamePeers.refl s
    · exact State.whenRunning_same State.stopPressed_same _ ⟨rfl, rfl, rfl, rfl⟩
  | stopRelease =>
    simp only [exec, execStopRelease] at h
    refine PeersWf.of_happensAtInputs h hs hw (.of_same fun s => ?_)
    split
    · exact State.whenRunning_same State.stopFreed_same _ ⟨rfl, rfl, rfl, rfl⟩
    · exact SamePeers.refl s
  | gridInputChange =>
    simp only [exec, execGridInputChange] at h
    exact PeersWf.of_happensAtInputs h hs hw (.of_same fun _ => ⟨rfl, rfl, rfl, rfl⟩)
  | readingLapse => exact PeersWf.of_happens h hs hw (.of_same State.readingLapses_same)
  | lineIdleAfterStart => exact PeersWf.of_happens h hs hw (.of_same State.lineWentIdle_same)
  | stagePeriodStart => exact PeersWf.of_happens h hs hw (.of_same State.periodStarts_same)

/-- Settles O59: the command at the front of the queue, by what each command does. -/
theorem stepsKeepThePeerTable : Obligations.StepsKeepThePeerTable := by
  unfold Obligations.StepsKeepThePeerTable
  intro s t hs htable hcensus h
  have hw : PeersWf s := ⟨htable, hcensus⟩
  unfold step at h
  split at h
  · cases h
    exact hw
  · rename_i c rest _
    exact exec_keepsPeers (s := { s with pending := rest }) hs hw h

end Sys2Proof.Machine
end

section
/-! The allocation point: round view, split test and the order of its notices (R53, R60, R96, R119, R120, R122, R128,
R173; O40). -/

namespace Sys2Proof.Machine

/-! ### The order of the notices (R173) -/

/-- Whatever the places given, each notice is there once, and each block's keep their order. -/
theorem arrivalOrder_arranges (o : Arrival) (ordered floor isolation lineErrors : List Notice) :
    let all := arrivalOrder o ordered floor isolation lineErrors
    all.Perm (ordered ++ floor ++ isolation ++ lineErrors) ∧ ordered.Sublist all ∧ floor.Sublist all ∧
    isolation.Sublist all ∧ lineErrors.Sublist all := by
  let withFloor := putAt o.floorReached floor ordered
  let withIsolation := putAt o.isolation isolation withFloor
  obtain ⟨ordered_floor, floor_floor⟩ := putAt_sublist o.floorReached floor ordered
  obtain ⟨floor_isolation, isolation_isolation⟩ := putAt_sublist o.isolation isolation withFloor
  obtain ⟨isolation_all, lineErrors_all⟩ := putAt_sublist o.lineErrors lineErrors withIsolation
  refine ⟨?_, (ordered_floor.trans floor_isolation).trans isolation_all,
    (floor_floor.trans floor_isolation).trans isolation_all, isolation_isolation.trans isolation_all, lineErrors_all⟩
  calc putAt o.lineErrors lineErrors withIsolation
    _ |>.Perm (withIsolation ++ lineErrors) := putAt_perm _ _ _
    _ |>.Perm (withFloor ++ isolation ++ lineErrors) := (putAt_perm _ _ _).append_right _
    _ |>.Perm (ordered ++ floor ++ isolation ++ lineErrors) := ((putAt_perm _ _ _).append_right _).append_right _

/-! ### Presence (R44, R53) -/

theorem Presence.isPresent_iff (p : Presence) : p.isPresent = true ↔ p = .fresh ∨ p = .stale := by
  cases p <;> simp [Presence.isPresent]

/-- No change of presence: FRESH, STALE or ABSENT before and after, whatever the reason. -/
theorem Presence.sameKind_iff (p q : Presence) :
    p.sameKind q = true ↔
      (p = .fresh ∧ q = .fresh) ∨ (p = .stale ∧ q = .stale) ∨ ∃ a b, p = .absent a ∧ q = .absent b := by
  cases p <;> cases q <;> simp [Presence.sameKind]

/-! ### The round view, entry by entry (R119, R122) -/

/-- A walk over the entries that keeps some of what they hold, by station number. -/
theorem filterMap_entries {α : Type} (g : PeerEntry → Option α) (es : List PeerEntry) :
    es.filterMap g = (List.range es.length).filterMap fun k => g (es.getD k .reset) := by
  induction es with
  | nil => rfl
  | cons e es ih =>
    rw [List.length_cons, List.range_succ_eq_map, List.filterMap_cons, List.filterMap_cons, List.filterMap_map, ih]
    rfl

/-- The peers of a view of 32 entries. -/
theorem State.roundView_peers {m : State} (h32 : m.peers.entries.length = 32) (c : Configuration) :
    (m.roundView c).peers =
      (List.range 32).filterMap fun k =>
        if m.control.number ≠ some k ∧ (m.peers.entry k).presence.isPresent = true then
          (m.peers.entry k).core.map fun core =>
            { number := k, received := m.peers.received.getLsbD k, core := core
              departure := (m.peers.entry k).profile.map fun p => p.departure }
        else none := by
  show peerRecords m.control.number m.peers.received 0 m.peers.entries = _
  rw [peerRecords_eq, h32]
  simp only [Nat.zero_add]
  rfl

theorem State.roundView_rosters {m : State} (h32 : m.peers.entries.length = 32) (c : Configuration) :
    (m.roundView c).rosters =
      (List.range 32).filterMap fun k => (m.peers.entry k).roster.map fun r => r.heard := by
  show m.peers.entries.filterMap _ = _
  rw [filterMap_entries, h32]
  rfl

/-- The digests are compared where the own last completed run is of the round before (R128). -/
theorem previousRun_iff (digestRound : Option Nat) (round : Nat) :
    previousRun digestRound round = true ↔ ∃ r, digestRound = some r ∧ (r + 1) % 65536 = round := by
  cases digestRound <;> simp [previousRun]

/-! ### The steps up to the freeze -/

/-- The state in which an allocation point freezes its view, from the one w its first steps leave. -/
def State.offered (w : State) : State := w.judgeIsolation.1.offerAtAllocation.1

theorem State.offered_keeps (w : State) :
    w.offered.peers = w.peers ∧ w.offered.window = w.window ∧ w.offered.grant = w.grant ∧
    w.offered.timer = w.timer ∧ w.offered.now = w.now ∧ w.offered.notices = w.notices := by
  simp [State.offered]

/-- Station Control at the freeze: the peer-heard mark and the isolated condition may have moved (R41). -/
theorem State.offered_control (w : State) :
    w.offered.control.state = w.control.state ∧ w.offered.control.number = w.control.number ∧
    w.offered.control.configuration = w.control.configuration := by
  simp [State.offered, (State.judgeIsolation_control w).1]

/-- The figures at the freeze are those computed at this allocation point (R103). -/
theorem State.offered_figures (w : State) :
    let R := w.readiness.computed w.control.causes w.control.configuration
    w.offered.readiness.offerPower = R.offerPower ∧ w.offered.readiness.offerEnergy = R.offerEnergy ∧
    w.offered.readiness.profile = w.readiness.profile := by
  rw [State.offered, (State.offerAtAllocation_eq _).1, (State.judgeIsolation_control w).1]
  simp

/-- Which kinds are enabled follows the configuration (R173). -/
theorem State.enabled_of_configuration {s t : State} (h : t.control.configuration = s.control.configuration) :
    t.enabled = s.enabled := by
  rw [State.enabled_eq, State.enabled_eq, h]

theorem State.freezeView_roundCount (s : State) : s.freezeView.1.timer.roundCount = s.timer.roundCount := by
  cases hc : s.control.configuration with
  | none => simp [State.freezeView, hc]
  | some c => rw [State.freezeView_timer hc]

/-- FLOOR_REACHED of an allocation point (R108). -/
def floorNotices (R : ReadinessUnit) (u : SetpointUnit) : List Notice :=
  if R.offerEnergy = 0 ∧ 0 < u.applied then [numbered .floorReached (R.estimate.getD 0)] else []

/-- ISOLATED or LINE_RESTORED, where the condition moved from one control to the next (R41). -/
def isolationNotices (before after : StationControl) (peers : PeerTable) : List Notice :=
  if after.isolated = before.isolated then []
  else if after.isolated then [numbered .isolated peers.census]
  else [numbered .lineRestored peers.liveCount]

/-- An allocation point's floor test makes just that notice (R108). -/
theorem State.floorNotices_eq (w : State) :
    w.judgeIsolation.1.offerAtAllocation.2 =
      floorNotices (w.readiness.computed w.control.causes w.control.configuration) w.setpoint := by
  rw [(State.offerAtAllocation_eq _).2, (State.judgeIsolation_control w).1]
  simp [floorNotices]

/-- AUTHORITY_CHANGED, where the authority is another (R60). -/
def authorityNotices (before after : PeerTable) : List Notice :=
  if after.authority = before.authority then []
  else [{ kind := .authorityChanged, subject := none, value := .authority after.authority }]

/-- LINE_ERRORS of a round with four corrupt transmissions or more (R9). -/
def lineErrorNotices (corrupt : Nat) : List Notice := if 4 ≤ corrupt then [numbered .lineErrors corrupt] else []

/-- An allocation point, by the state u in which its view is frozen: what u holds of the blocks the view is taken from,
the grant after it, and all its notices. -/
theorem State.allocate_frozen (order : Arrival) (m : State) :
    ∃ u : State,
      let t := m.allocate order
      let R := m.readiness.computed m.control.causes m.control.configuration
      (u.peers = t.peers ∧ u.window = t.window ∧ u.grant = m.grant ∧ u.now = m.now ∧
        u.timer.roundCount = m.timer.roundCount) ∧
      (u.control.state = m.control.state ∧ u.control.number = m.control.number ∧
        u.control.configuration = m.control.configuration) ∧
      (u.readiness.offerPower = R.offerPower ∧ u.readiness.offerEnergy = R.offerEnergy ∧
        u.readiness.profile = m.readiness.profile) ∧
      t.grant = u.freezeView.1.grant ∧
      t.notices =
        folded m.enabled m.timer.roundCount
          (arrivalOrder order
            (presenceNotices 0 m.peers.entries (m.peers.agedEntries m.control.number) ++
              authorityNotices m.peers t.peers ++ windowNotices m.window.adopted t.window.adopted ++ u.freezeView.2)
            (floorNotices R m.setpoint) (isolationNotices m.control t.control t.peers)
            (lineErrorNotices m.line.corrupt))
          m.notices := by
  obtain ⟨w, L1, L2, wc, wr, ws, wg, -, -, wnow, wn, -, -, -, wt, wp, ww, -, rfl, rfl, hall⟩ := allocate_split order m
  obtain ⟨op, ow, og, ot, onow, on⟩ := State.offered_keeps w
  have control : (m.allocate order).control =
      { w.judgeIsolation.1.control with state := (m.allocate order).control.state } := by
    rw [hall]
    simp only [State.noticeAll_keeps]
    rw [State.joinIfDue_control]
    simp
  have isolation :
      w.judgeIsolation.2 = isolationNotices m.control (m.allocate order).control (m.allocate order).peers := by
    rw [(State.judgeIsolation_control w).2, control, ← wp, ← wc]
    rfl
  refine ⟨w.offered, ⟨op.trans wp, ow.trans ww, og.trans wg, onow.trans wnow, by rw [ot, wt]⟩, ?control, ?figures,
    ?grant, ?notices⟩
  case control => rw [← wc]; exact w.offered_control
  case figures => rw [← wc, ← wr]; exact w.offered_figures
  case grant => rw [hall]; simp [State.offered]
  case notices =>
    have floor := State.floorNotices_eq w
    rw [wc, wr, ws] at floor
    have configuration : w.offered.freezeView.1.joinIfDue.control.configuration = w.control.configuration := by
      rw [State.joinIfDue_control]
      simp [State.offered_control]
    have round : w.offered.freezeView.1.joinIfDue.timer.roundCount = m.timer.roundCount := by
      simp [State.freezeView_roundCount, ot, wt]
    have queue : w.offered.freezeView.1.joinIfDue.notices = m.notices := by simp [on, wn]
    have enabled : w.offered.freezeView.1.joinIfDue.enabled = m.enabled := by
      rw [State.enabled_of_configuration configuration]
      exact State.enabled_of_configuration (congrArg StationControl.configuration wc)
    rw [← isolation, ← floor, ← wp, ← ww, ← enabled, ← round, ← queue]
    conv => lhs; rw [hall, State.noticeAll_notices]
    rfl

/-- How many peers' digests differ from the own (R128), in a state u with a view of a configuration. -/
def State.differingDigests (u : State) (c : Configuration) : Nat :=
  if previousRun u.grant.digestRound u.timer.roundCount then (u.roundView c).differing u.grant.digest else 0

/-- The Grant Engine after a freeze, and the split notice (R119, R128). -/
theorem State.freezeView_runs {u : State} {c : Configuration} (hc : u.control.configuration = some c)
    (hr : u.control.state.runs = true) :
    u.freezeView.1.grant =
      { u.grant with
        view := some (u.roundView c), splitSeen := decide (0 < u.differingDigests c), runStatus := .inFlight
        sentOffer := none } ∧
    u.freezeView.2 = if 0 < u.differingDigests c then [numbered .viewSplit (u.differingDigests c)] else [] := by
  rw [freezeView_some hc, if_pos hr]
  exact ⟨rfl, rfl⟩

theorem State.freezeView_idle {u : State} {c : Configuration} (hc : u.control.configuration = some c)
    (hr : u.control.state.runs = false) :
    u.freezeView.1.grant = { u.grant with sentOffer := none } ∧ u.freezeView.2 = [] := by
  rw [freezeView_some hc, if_neg (by simp [hr])]
  exact ⟨rfl, rfl⟩

/-- The presence notices of an allocation point, entry by entry (R53). -/
theorem PeerTable.presenceNotices_afterAgeing {t : PeerTable} (h32 : t.entries.length = 32) (c : StationControl) :
    presenceNotices 0 t.entries (t.agedEntries c.number) =
      (List.range 32).flatMap fun k =>
        if (t.entry k).presence.sameKind ((t.afterAgeing c).entry k).presence then []
        else [peerNotice k ((t.afterAgeing c).entry k).presence] := by
  have presence : ∀ k, ((t.afterAgeing c).entry k).presence = ((t.agedEntries c.number).getD k .reset).presence := by
    intro k
    have h : (t.afterAgeing c).entry k = _ := clearFlags_get (t.agedEntries c.number) k
    rw [h]
  rw [presenceNotices_eq _ _ _ (PeerTable.agedEntries_length t c.number).symm, h32]
  simp only [presence, Nat.zero_add]
  rfl

/-- Settles O40: the order, presence, then the view and the notices from the state in which the view is frozen. -/
theorem allocationPointFreezesTheView : Obligations.AllocationPointFreezesTheView := by
  unfold Obligations.AllocationPointFreezesTheView
  refine ⟨arrivalOrder_arranges, fun p q => ⟨p.isPresent_iff, p.sameKind_iff q⟩, ?_⟩
  intro dt order c s ⟨hr, hc, hp, a, ha, he⟩ h32 m
  have mp : m.peers = s.peers := by simp [m]
  have mc : m.control = s.control := by simp [m]
  have mt : m.timer = s.timer := State.advance_timer dt s
  have mg : m.grant = s.grant := by simp [m]
  have ms : m.setpoint = s.setpoint := by simp [m]
  have ml : m.line = s.line := by simp [m]
  have mn : m.notices = s.notices := by simp [m]
  have mprofile : m.readiness.profile = s.readiness.profile := by simp [m]
  have madopted : m.window.adopted = s.window.adopted := by simp [m]
  have menabled : m.enabled = s.enabled := State.enabled_of_configuration (congrArg StationControl.configuration mc)
  have hdue : m.allocationPoint order = m.allocate order :=
    State.allocationPoint_due (by rw [mt]; exact ha) (by rw [mt]; exact hp) (by rw [State.advance_now]; exact he) order
  rw [exec_allocationPoint hr, hdue]
  refine ⟨_, rfl, ?_⟩
  obtain ⟨u, ⟨up, uw, ug, unow, uround⟩, ⟨ustate, unumber, uconf⟩, ⟨upower, uenergy, uprofile⟩, grant, notices⟩ :=
    State.allocate_frozen order m
  have peersAfter := State.allocate_peers order m
  rw [mp, mc] at peersAfter
  obtain ⟨-, -, -, tc, tp, -, tw, -, tg, -, tn, -⟩ := State.settle_keeps (m.allocate order)
  generalize (m.allocate order).settle = t at tc tp tw tg tn ⊢
  rw [← tp] at up peersAfter
  rw [← tw] at uw
  rw [← tg] at grant
  rw [← tn, ← tp, ← tw, ← tc] at notices
  rw [mc] at ustate unumber uconf upower uenergy notices
  rw [mp, ms, ml, mn, mt, menabled, madopted] at notices
  rw [mt] at uround
  rw [mg] at ug
  rw [mprofile] at uprofile
  have entry : ∀ k, t.peers.entry k = (s.peers.afterAgeing s.control).entry k := fun k => by rw [peersAfter]; rfl
  have length : u.peers.entries.length = 32 := by
    rw [up, peersAfter]
    exact (PeerTable.afterAgeing_length _ _).trans h32
  rw [hc] at uconf
  intro round peers differing R reached
  have viewPeers : (u.roundView c).peers = peers := by
    rw [State.roundView_peers length, up, unumber]
  have hdiffering : u.differingDigests c = differing := by
    unfold State.differingDigests RoundView.differing
    simp only [previousRun_iff, viewPeers, ug, uround]
    rfl
  have splitNotices : u.freezeView.2 =
      if s.control.state.runs = true ∧ 0 < differing then [numbered .viewSplit differing] else [] := by
    cases hruns : s.control.state.runs with
    | true =>
      rw [(State.freezeView_runs uconf (ustate ▸ hruns)).2, hdiffering]
      simp
    | false =>
      rw [(State.freezeView_idle uconf (ustate ▸ hruns)).2]
      simp
  refine ⟨fun hruns => ?view, fun hidle => ?noView, ?notices⟩
  case view =>
    have frozen := (State.freezeView_runs uconf (ustate ▸ hruns)).1
    rw [ug, hdiffering] at frozen
    refine ⟨u.roundView c, grant.trans frozen, ?_⟩
    refine ⟨congrArg (·.getD 0) unumber, ustate, ?offer, congrArg (Option.map BusProfile.departure) uprofile,
      congrArg GrantEngine.sentOffer ug, viewPeers, congrArg PeerTable.received up, congrArg PeerTable.heard up, ?rosters,
      congrArg PeerTable.liveCount up, congrArg PeerTable.census up, ?budget, uround, unow⟩
    case offer => show Offer.mk _ _ = Offer.mk _ _; rw [upower, uenergy]
    case rosters => rw [State.roundView_rosters length, up]
    case budget => show min u.window.adopted.budget c.depotLimit = _; rw [uw]
  case noView => rw [grant, (State.freezeView_idle uconf (ustate ▸ hidle)).1, ug]
  case notices =>
    rw [notices, splitNotices, PeerTable.presenceNotices_afterAgeing h32 s.control]
    simp only [entry]
    rfl

end Sys2Proof.Machine
end

section
/-! PEER and STATUS: their fields byte by byte, and what they leave (R63, R168, R169, R171; O16). -/

namespace Sys2Proof.Machine

/-! ### Flags as numbers (R171) -/

theorem bitsByte_five (a b c d e : Bool) :
    bitsByte [a, b, c, d, e] =
      byte ((if a then 1 else 0) + 2 * (if b then 1 else 0) + 4 * (if c then 1 else 0) + 8 * (if d then 1 else 0) +
        16 * (if e then 1 else 0)) := by
  revert a b c d e
  decide

theorem bitsByte_four (a b c d : Bool) :
    bitsByte [a, b, c, d] =
      byte ((if a then 1 else 0) + 2 * (if b then 1 else 0) + 4 * (if c then 1 else 0) + 8 * (if d then 1 else 0)) := by
  revert a b c d
  decide

theorem flagByte_eq (b : Bool) : flagByte b = byte (if b then 1 else 0) := by
  cases b <;> rfl

/-! ### How many fields -/

theorem coreRecord_length (c : Option FrameCore) : (coreRecord c).length = 9 := by
  cases c <;> rfl

theorem peerFields_length (k : Nat) (e : PeerEntry) : (peerFields k e).length = 32 := by
  unfold peerFields
  simp only [List.length_append, coreRecord_length]
  cases e.signal <;> cases e.roster <;> cases e.profile <;> rfl

theorem statusFields_length (s : State) : (statusFields s).length = 33 := rfl

/-! ### The two commands (R168, R169) -/

theorem peer_passes {k : Byte} (hk : k.toNat ≤ 31) (st : StationState) :
    checkRequest (kindCode .peer) 0x01 [k] st = .pass .peer := by
  have hin : within 0 (fieldByte [k] 0) 31 = true := decide_eq_true ⟨Nat.zero_le _, hk⟩
  simp [checkRequest, kindOfByte, kindCode, kindLength, kindAllowed, fieldChecks, firstBad, hin]

theorem status_passes (st : StationState) : checkRequest (kindCode .status) 0x00 [] st = .pass .status := by
  simp [checkRequest, kindOfByte, kindCode, kindLength, kindAllowed, fieldChecks, firstBad]

theorem exec_peer {dt : Nat} {k : Byte} {s : State} (hs : s.accepts) (hk : k.toNat ≤ 31) :
    exec (.peer dt 0x01 [k]) s =
      .next (State.settle (((s.written dt 3).openRequest (kindCode .peer) 0x01 [k]).answerPeer [k])) :=
  execWriteRequest_pass (straps := noStraps) hs.1 hs.2 (peer_passes hk _)

theorem exec_status {dt : Nat} {s : State} (hs : s.accepts) :
    exec (.status dt 0x00 []) s =
      .next (State.settle ((s.written dt 2).openRequest (kindCode .status) 0x00 []).answerStatus) :=
  execWriteRequest_pass (straps := noStraps) hs.1 hs.2 (status_passes _)

/-- Settles O16: the fields part by part, then each command by the write that it is. -/
theorem peerAndStatusAnswer : Obligations.PeerAndStatusAnswer := by
  unfold Obligations.PeerAndStatusAnswer
  refine ⟨⟨fun k e => ?peerBytes, fun s => ?statusBytes⟩, fun dt k s hs => ⟨fun hk => ?peer, ?status⟩⟩
  case peerBytes =>
    have appended : ∀ {a b c d : List Byte}, a = c → b = d → a ++ b = c ++ d :=
      fun hac hbd => by rw [hac, hbd]
    dsimp only
    unfold peerFields
    simp only [List.map_append]
    refine appended (appended (appended (appended (appended ?head ?core) ?rider) ?signal) ?roster) ?profile
    case head => rw [bitsByte_five, flagByte_eq]; rfl
    case core =>
      cases e.core with
      | none => rfl
      | some c =>
        unfold coreRecord
        simp only [causesByte_spelled, flagByte_eq]
        rfl
    case rider => cases e.riderKind <;> rfl
    case signal => cases e.signal <;> rfl
    case roster => cases e.roster <;> rfl
    case profile => cases e.profile <;> rfl
  case statusBytes =>
    dsimp only
    unfold statusFields
    rw [bitsByte_five, bitsByte_four, flagByte_eq, causesByte_spelled]
    rfl
  case peer =>
    intro m
    obtain ⟨-, -, -, peers, -⟩ := State.written_keeps dt 3 s
    refine ⟨peerFields_length _ _, ?_⟩
    rw [exec_peer hs hk, ← peers]
    rfl
  case status =>
    intro m
    refine ⟨statusFields_length m, ?_⟩
    rw [exec_status hs]
    rfl

end Sys2Proof.Machine
end

section
/-! Announcements and the rider plan: the judging of a CLOCK rider and the choice of the rider that goes out
(R71 to R73, R76, R77; O26, O36). -/

namespace Sys2Proof.Machine

/-! ### A CLOCK rider against the own clock (R76, R77) -/

/-- A carried minute and second in microseconds of the day. -/
theorem clockOf_cast (minute second : Nat) :
    (clockOf minute second : Int) = 1000000 * (60 * (minute : Int) + second) := by
  simp only [clockOf, Config.second]
  omega

theorem State.clockAt_lt_day (s : State) (t : Instant) : s.clockAt t < Config.day := by
  have below := Int.emod_lt_of_pos ((s.window.clock : Int) - (s.now - t)) (b := 86400000000) (by decide)
  rw [← State.clockAt_eq] at below
  exact Int.ofNat_lt.mp below

/-- The difference the short way, as the smaller of the ways ahead and behind around the day: the model's natural
difference, a day added before it is taken, is the integers' one. -/
theorem clockDifference_cast (a : Nat) {b : Nat} (hb : b < Config.day) :
    (clockDifference a b : Int) =
      min (((a : Int) - b) % 86400000000) (86400000000 - ((a : Int) - b) % 86400000000) := by
  simp only [Config.day, Config.second] at hb
  have ahead : (((a + 86400000000 - b) % 86400000000 : Nat) : Int) = ((a : Int) - b) % 86400000000 := by omega
  simp only [clockDifference, Config.day, Config.second]
  omega

/-- The state once the depot clock is set to a carried figure and the time since the anchor (R77). -/
def State.clockSet (carried : Nat) (a : Instant) (s : State) : State :=
  { s with window := { s.window with clock := (((carried : Int) + (s.now - a)) % (Config.day : Int)).toNat } }

theorem State.clockSet_clock (carried : Nat) (a : Instant) (s : State) :
    ((s.clockSet carried a).window.clock : Int) = ((carried : Int) + (s.now - a)) % 86400000000 :=
  Int.toNat_of_nonneg (Int.emod_nonneg _ (by decide))

/-- R76: a frame with no CLOCK rider is not judged. -/
theorem State.judgeClock_otherRider {f : Frame} (h : ∀ minute second, f.rider ≠ .clock minute second) (s : State) :
    s.judgeClock f = s := by
  unfold State.judgeClock
  split
  next minute second _ hr _ => exact absurd hr (h minute second)
  next => rfl

section
variable {f : Frame} {s : State} {a : Instant} {minute second : Nat}
  (ha : s.timer.anchor = some a) (hf : f.rider = .clock minute second)
include ha hf

/-- The judging of a CLOCK rider in its branches (R76, R77). -/
theorem State.judgeClock_clock :
    s.judgeClock f =
      if s.peers.authority = some f.station then
        if clockDifference (clockOf minute second) (s.clockAt a) < 1000000 then s
        else if 60000000 < clockDifference (clockOf minute second) (s.clockAt a) then
          (s.clockSet (clockOf minute second) a).notice
            (numbered .clockStepped (clockDifference (clockOf minute second) (s.clockAt a) / 1000000))
        else s.clockSet (clockOf minute second) a
      else s := by
  unfold State.judgeClock
  rw [hf, ha]
  rfl

/-- R76: a CLOCK rider of another station than the authority is not judged. -/
theorem State.judgeClock_otherSender (hp : s.peers.authority ≠ some f.station) : s.judgeClock f = s := by
  rw [State.judgeClock_clock ha hf, if_neg hp]

/-- R77: a difference of less than 1 s leaves the clock. -/
theorem State.judgeClock_near (h : clockDifference (clockOf minute second) (s.clockAt a) < 1000000) :
    s.judgeClock f = s := by
  rw [State.judgeClock_clock ha hf, if_pos h, ite_self]

/-- R77: a difference of 1 s or more sets the clock, and one of more than 60 s is noticed. -/
theorem State.judgeClock_far (hp : s.peers.authority = some f.station)
    (h : 1000000 ≤ clockDifference (clockOf minute second) (s.clockAt a)) :
    s.judgeClock f =
      { s.clockSet (clockOf minute second) a with
        notices :=
          if 60000000 < clockDifference (clockOf minute second) (s.clockAt a) then
            folded s.enabled s.timer.roundCount
              [numbered .clockStepped (clockDifference (clockOf minute second) (s.clockAt a) / 1000000)] s.notices
          else s.notices } := by
  rw [State.judgeClock_clock ha hf, if_pos hp, if_neg (Nat.not_lt.mpr h)]
  split
  next => rw [State.notice_eq, State.notice_notices]; rfl
  next => rfl

end

/-- Settles O26: the model's natural difference is the statement's integer one, and then each size has its rule. -/
theorem clockRidersOfTheAuthorityAreJudged : Obligations.ClockRidersOfTheAuthorityAreJudged := by
  unfold Obligations.ClockRidersOfTheAuthorityAreJudged
  refine ⟨fun f s h => State.judgeClock_otherRider h s, ?_⟩
  intro f s a minute second ha hf day carried own ahead size _ _
  have hsize : (clockDifference (clockOf minute second) (s.clockAt a) : Int) = size := by
    rw [clockDifference_cast _ (s.clockAt_lt_day a), State.clockAt_eq, clockOf_cast]
  refine ⟨State.judgeClock_otherSender ha hf, fun hp => ⟨fun hnear => ?near, fun hfar => ?far⟩⟩
  case near => exact State.judgeClock_near ha hf (by omega)
  case far =>
    have judged := State.judgeClock_far ha hf hp (by omega)
    refine ⟨?clock, ?notices, ?frame⟩
    case clock =>
      rw [judged]
      exact (State.clockSet_clock _ a s).trans (by rw [clockOf_cast])
    case notices =>
      have hnoticed :
          60000000 < clockDifference (clockOf minute second) (s.clockAt a) ↔ 60000000 < size := by omega
      have hvalue :
          clockDifference (clockOf minute second) (s.clockAt a) / 1000000 = (size / 1000000).toNat := by omega
      rw [judged]
      simp only [hnoticed, hvalue]
    case frame =>
      rw [judged]
      rfl

/-! ### The choice of the rider (R71, R72) -/

/-- A PROFILE entry waits for a bus profile; no other entry does. -/
theorem profileMaySend_iff (x : PlanContext) (k : PlanKind) :
    (decide (k ≠ .profile) || x.profileHeld) = true ↔ (k = .profile → x.profileHeld = true) := by
  cases k <;> simp

/-- R71, with its two exceptions. -/
theorem riderDue_iff (x : PlanContext) (e : RiderEntry) :
    riderDue x e = true ↔
      x.round % e.entry.period = e.entry.offset ∧ (e.entry.kind = .clock → x.strap = true) ∧
        (e.entry.kind = .profile → x.profileHeld = true) := by
  unfold riderDue
  rw [Bool.and_eq_true, decide_eq_true_iff]
  cases e.entry.kind <;> simp

theorem riderSendable_iff (x : PlanContext) (e : RiderEntry) :
    riderSendable x e = true ↔ e.owed = true ∧ (e.entry.kind = .profile → x.profileHeld = true) := by
  rw [riderSendable, Bool.and_eq_true, profileMaySend_iff]

/-- R72, 3 and 5: an entry that is not chosen is owed where it was or is due, unless it waits for a profile. -/
theorem markOne_owed_iff (x : PlanContext) (e : RiderEntry) :
    (remark.markOne x e).owed = true ↔
      (e.owed = true ∨ riderDue x e = true) ∧ (e.entry.kind = .profile → x.profileHeld = true) := by
  rw [remark.markOne, Bool.and_eq_true, Bool.or_eq_true, profileMaySend_iff]

/-- R72, 1 and 2: the chosen place is that of the first sendable entry, or with none sendable of the first due one. -/
theorem chosenIndex_some {x : PlanContext} {plan : List RiderEntry} {i : Nat} (h : chosenIndex x plan = some i) :
    firstIndex (riderSendable x) plan = some i ∨
      firstIndex (riderSendable x) plan = none ∧ firstIndex (riderDue x) plan = some i := by
  unfold chosenIndex at h
  split at h
  next j hj => exact .inl (hj.trans h)
  next hn => exact .inr ⟨hn, h⟩

theorem chosenIndex_none {x : PlanContext} {plan : List RiderEntry} (h : chosenIndex x plan = none) :
    firstIndex (riderSendable x) plan = none ∧ firstIndex (riderDue x) plan = none := by
  unfold chosenIndex at h
  split at h
  next => cases h
  next hn => exact ⟨hn, h⟩

/-- Settles O36: the choice by the two searches of the plan, the marks entry by entry. -/
theorem riderSelection : Obligations.RiderSelection := by
  unfold Obligations.RiderSelection
  intro x plan
  simp only [← riderDue_iff, ← riderSendable_iff, Bool.not_eq_true]
  refine ⟨fun i hi => ?chosen, fun hn => ?nothing, (remark_get x plan _).1, fun i e he => ?marks⟩
  case chosen =>
    obtain hsend | ⟨hnone, hdue⟩ := chosenIndex_some hi
    · obtain ⟨e, he, hp, hfirst⟩ := firstIndex_some _ plan i hsend
      exact ⟨e, he, .inl ⟨hp, hfirst⟩⟩
    · obtain ⟨e, he, hp, hfirst⟩ := firstIndex_some _ plan i hdue
      exact ⟨e, he, .inr ⟨hp, hfirst, firstIndex_none _ plan hnone⟩⟩
  case nothing =>
    obtain ⟨hsend, hdue⟩ := chosenIndex_none hn
    exact fun e he => ⟨firstIndex_none _ plan hsend e he, firstIndex_none _ plan hdue e he⟩
  case marks =>
    refine ⟨_, (remark_get x plan _).2 i e he, ?_⟩
    split
    next h => simp [h]
    next h => exact ⟨rfl, by simp [h, markOne_owed_iff]⟩

end Sys2Proof.Machine
end

section
/-! GRID_INPUT_CHANGE and the STAGE period (R81, R145, R146; O53). -/

namespace Sys2Proof.Machine

/-! ### The grid contacts (R81) -/

theorem quadGet_quadSet {α : Type} (q : Quad α) (l l' : GridLine) (a : α) :
    quadGet (quadSet q l a) l' = if l' = l then a else quadGet q l' := by
  cases l <;> cases l' <;> rfl

theorem exec_gridInputChange (dt : Nat) (l : GridLine) (level : Bool) (s : State) :
    exec (.gridInputChange dt l level) s =
      .next (State.settle { s.advance dt with inputs := { s.inputs with grid := quadSet s.inputs.grid l level } }) := by
  simp [exec, execGridInputChange, happensAtInputs]

/-! ### The STAGE period (R145, R146) -/

/-- The state once the line has taken up the duty for the period that starts at an instant. -/
def State.inPeriodFrom (start : Instant) (s : State) : State :=
  { s with setpoint := { s.setpoint with lineDuty := s.setpoint.duty, periodStart := some start } }

theorem exec_stagePeriodStart (dt : Nat) {s : State} (hr : s.running = true) :
    exec (.stagePeriodStart dt) s = .next (s.advance dt).periodStarts.settle := happens_running hr

/-- The time since the start of the period, in the period that the thousands put k periods after the first. -/
theorem sub_emod_period {p now : Int} {k : Nat} (hfrom : p + 1000 * k ≤ now) (hto : now < p + 1000 * (k + 1)) :
    (now - p) % (Config.stagePeriod : Int) = now - (p + 1000 * k) := by
  simp only [Config.stagePeriod, Config.ms]
  omega

theorem State.periodStarts_first {s : State} (h : s.setpoint.periodStart = none) :
    s.periodStarts = s.inPeriodFrom s.now := by
  simp [State.periodStarts, State.inPeriodFrom, h]

theorem State.periodStarts_early {s : State} {p : Instant} (h : s.setpoint.periodStart = some p)
    (hnow : s.now < p + 1000) : s.periodStarts = s := by
  simp only [State.periodStarts, h]
  exact if_neg (Int.not_le.mpr hnow)

theorem State.periodStarts_later {s : State} {p : Instant} {k : Nat} (h : s.setpoint.periodStart = some p)
    (hk : 1 ≤ k) (hfrom : p + 1000 * k ≤ s.now) (hto : s.now < p + 1000 * (k + 1)) :
    s.periodStarts = s.inPeriodFrom (p + 1000 * k) := by
  have periods : (1000 : Int) ≤ 1000 * k := by omega
  have ended : after p Config.stagePeriod ≤ s.now := Int.le_trans (Int.add_le_add_left periods p) hfrom
  simp only [State.periodStarts, h, if_pos ended, sub_emod_period hfrom hto, Int.sub_sub_self]
  rfl

theorem State.stageHigh_unstarted {s : State} (h : s.setpoint.periodStart = none) : s.stageHigh = false := by
  simp [State.stageHigh, h]

theorem State.stageHigh_iff {s : State} {p : Instant} {k : Nat} (h : s.setpoint.periodStart = some p)
    (hfrom : p + 1000 * k ≤ s.now) (hto : s.now < p + 1000 * (k + 1)) :
    s.stageHigh = true ↔ s.now < p + 1000 * k + s.setpoint.lineDuty := by
  simp only [State.stageHigh, h, sub_emod_period hfrom hto, decide_eq_true_iff]
  exact ⟨Int.lt_add_of_sub_left_lt, Int.sub_left_lt_of_lt_add⟩

/-- Settles O53: the contact's change; then the command by whether a period runs and how far. -/
theorem gridAndStagePeriod : Obligations.GridAndStagePeriod := by
  unfold Obligations.GridAndStagePeriod
  intro dt l l' level s hr m
  have mset : m.setpoint = s.setpoint := by simp [m]
  have started (start : Instant) : m.inPeriodFrom start =
      { m with setpoint := { s.setpoint with lineDuty := s.setpoint.duty, periodStart := some start } } := by
    rw [← mset]; rfl
  rw [exec_stagePeriodStart dt hr]
  refine ⟨exec_gridInputChange dt l level s, quadGet_quadSet _ l l' level, fun hnone => ⟨?low, ?first⟩,
    fun p hp => ⟨fun hnow => ?early, fun k => ⟨fun hk hfrom hto => ?later, State.stageHigh_iff hp⟩⟩⟩
  case low => exact State.stageHigh_unstarted hnone
  case first => rw [← started, State.periodStarts_first (mset ▸ hnone)]
  case early => rw [State.periodStarts_early (mset ▸ hp) hnow]
  case later => rw [← started, State.periodStarts_later (mset ▸ hp) hk hfrom hto]

end Sys2Proof.Machine
end

section
/-! The own window: its conditions, its steps and the notices of the adopted one (R82 to R91, R96, R97; O54). -/

namespace Sys2Proof.Machine

/-! ### The lines that match (R82) -/

theorem lineMatches_iff (k : LineCondition) (before : Option Bool) (level : Bool) :
    lineMatches k before level = true ↔
      (k = .levelHigh ∧ level = true) ∨ (k = .levelLow ∧ level = false) ∨
      (k = .rising ∧ before = some false ∧ level = true) ∨
      (k = .falling ∧ before = some true ∧ level = false) ∨
      (k = .either ∧ before = some (!level)) := by
  cases k with
  | levelHigh | levelLow => simp [lineMatches]
  | rising | falling | either => cases before <;> cases level <;> simp [lineMatches]

theorem LineCondition.isLevel_iff (k : LineCondition) : k.isLevel = true ↔ k = .levelHigh ∨ k = .levelLow := by
  cases k <;> simp [LineCondition.isLevel]

theorem mem_allLines (l : GridLine) : l ∈ allLines := by
  cases l <;> decide

theorem mem_caredLines {c : Configuration} {l : GridLine} : l ∈ caredLines c ↔ (quadGet c.grid l).care = true := by
  simp [caredLines, mem_allLines]

/-- A line shows at a sample: it is cared for, and its condition is met there. -/
def Configuration.shows (c : Configuration) (previous : Option Sample) (levels : Quad Bool) (l : GridLine) : Bool :=
  (quadGet c.grid l).care &&
    lineMatches (quadGet c.grid l).condition (previous.map fun p => quadGet p.levels l) (quadGet levels l)

theorem Configuration.shows_iff {c : Configuration} {previous : Option Sample} {levels : Quad Bool} {l : GridLine} :
    c.shows previous levels l = true ↔
      (quadGet c.grid l).care = true ∧
      lineMatches (quadGet c.grid l).condition (previous.map fun p => quadGet p.levels l) (quadGet levels l) = true :=
  Bool.and_eq_true_iff

theorem matchingLines_eq (c : Configuration) (previous : Option Sample) (levels : Quad Bool) :
    matchingLines c previous levels = allLines.filter (c.shows previous levels) := by
  simp only [matchingLines, caredLines, List.filter_filter]
  congr 1
  funext l
  exact Bool.and_comm _ _

theorem matchingLines_ne_nil {c : Configuration} {previous : Option Sample} {levels : Quad Bool} :
    matchingLines c previous levels ≠ [] ↔ ∃ l, c.shows previous levels l = true := by
  simp [matchingLines_eq, List.filter_eq_nil_iff, mem_allLines]

theorem matchingLines_head {c : Configuration} {previous : Option Sample} {levels : Quad Bool} {k : Nat} {l : GridLine}
    (hl : allLines[k]? = some l) (hs : c.shows previous levels l = true)
    (hfirst : ∀ j < k, ∀ l', allLines[j]? = some l' → ¬c.shows previous levels l' = true) :
    (matchingLines c previous levels).head? = some l := by
  obtain ⟨hk, rfl⟩ := List.getElem?_eq_some_iff.mp hl
  rw [matchingLines_eq, List.head?_filter, List.find?_eq_some_iff_getElem]
  refine ⟨hs, k, hk, rfl, fun j hj => ?_⟩
  simpa using hfirst j hj _ (List.getElem?_eq_getElem _)

/-! ### Match, close and the clock window (R83 to R85) -/

theorem caredLines_ne_nil {c : Configuration} : caredLines c ≠ [] ↔ ∃ l, (quadGet c.grid l).care = true := by
  simp [caredLines, List.filter_eq_nil_iff, mem_allLines]

theorem matchingLines_length_eq_iff {c : Configuration} {previous : Option Sample} {levels : Quad Bool} :
    (matchingLines c previous levels).length = (caredLines c).length ↔
      ∀ l, (quadGet c.grid l).care = true → c.shows previous levels l = true := by
  rw [matchingLines, List.length_filter_eq_length_iff]
  refine forall_congr' fun l => ?_
  rw [mem_caredLines]
  exact imp_congr_right fun hcare => by simp [Configuration.shows, hcare]

theorem patternMatch_iff {c : Configuration} {previous : Option Sample} {levels : Quad Bool} :
    patternMatch c previous levels = true ↔
      (c.mode = .all ∧ (∃ l, (quadGet c.grid l).care = true) ∧
        ∀ l, (quadGet c.grid l).care = true → c.shows previous levels l = true) ∨
      ((c.mode = .any ∨ c.mode = .ranked) ∧ ∃ l, c.shows previous levels l = true) := by
  unfold patternMatch
  rw [← caredLines_ne_nil, ← matchingLines_length_eq_iff, ← matchingLines_ne_nil]
  cases c.mode <;> simp

theorem patternClose_iff {c : Configuration} {previous : Option Sample} {matched : Bool} :
    patternClose c previous matched = true ↔
      c.mode ≠ .none ∧
      (∀ l, (quadGet c.grid l).care = true →
        (quadGet c.grid l).condition = .levelHigh ∨ (quadGet c.grid l).condition = .levelLow) ∧
      matched = false ∧ ∀ p, previous = some p → p.matched = false := by
  have unmatched : (!(previous.map fun p => p.matched).getD false) = true ↔
      ∀ p, previous = some p → p.matched = false := by
    cases previous <;> simp
  rw [patternClose, Bool.and_eq_true, Bool.and_eq_true, Bool.and_eq_true, unmatched, decide_eq_true_iff,
    List.all_eq_true, Bool.not_eq_true', and_assoc, and_assoc]
  simp only [mem_caredLines, LineCondition.isLevel_iff]

theorem insideClock_sameDay {c : Configuration} (h : c.clockStart < c.clockEnd) (minute : Nat) :
    insideClock c minute = true ↔ c.clockStart ≤ minute ∧ minute < c.clockEnd := by
  rw [insideClock, if_pos h, decide_eq_true_iff]

theorem insideClock_overMidnight {c : Configuration} (h : c.clockEnd < c.clockStart) (minute : Nat) :
    insideClock c minute = true ↔ c.clockStart ≤ minute ∨ minute < c.clockEnd := by
  rw [insideClock, if_neg (Nat.lt_asymm h), decide_eq_true_iff]

theorem matchCounts_iff {c : Configuration} {matched : Bool} {minute : Nat} :
    matchCounts c matched minute = true ↔
      matched = true ∧ (c.clockEnabled = true → insideClock c minute = true) := by
  cases hc : c.clockEnabled <;> simp [matchCounts, hc]

/-! ### The conditions of a step (R83, R87) -/

theorem openCondition_iff {c : Configuration} {i : StepInput} :
    openCondition c i = true ↔
      (c.mode = .none ∧ c.clockEnabled = true ∧ insideClock c i.minute = true) ∨
      (c.mode ≠ .none ∧ matchCounts c i.matched i.minute = true) := by
  unfold openCondition
  cases c.mode <;> simp

theorem closeCondition_iff {c : Configuration} {i : StepInput} {exhausted : Bool} :
    closeCondition c i exhausted = true ↔
      patternClose c i.previous i.matched = true ∨
      (c.clockEnabled = true ∧ ¬insideClock c i.minute = true) ∨ exhausted = true := by
  simp [closeCondition, or_assoc]

theorem heldTargetStep_kept {c : Configuration} {i : StepInput} (held : Nat)
    (h : ¬(c.mode = .ranked ∧ matchCounts c i.matched i.minute = true)) : heldTargetStep c i held = held :=
  if_neg h

theorem heldTargetStep_counted {c : Configuration} {i : StepInput} (held : Nat) (hm : c.mode = .ranked)
    (hc : matchCounts c i.matched i.minute = true) :
    heldTargetStep c i held =
      ((matchingLines c i.previous i.levels).head?.map (quadGet c.levels)).getD held := by
  rw [heldTargetStep, if_pos ⟨hm, hc⟩]
  cases matchingLines c i.previous i.levels <;> rfl

/-! ### The steps of the own window (R88 to R91) -/

/-- R91 by the mode alone. -/
theorem openBudget_eq (c : Configuration) (held : Nat) :
    openBudget c held = min (if c.mode = .ranked then held else c.baseTarget) c.depotLimit := by
  unfold openBudget targetOf
  cases c.mode <;> rfl

section
variable (c : Configuration) (i : StepInput) (w : OwnWindow)

theorem stepClosed_opens (h : openCondition c i = true) :
    stepClosed c i w =
      { w with
        state := .opened, sequence := (w.sequence + 1) % 16, maxDuration := c.maxRounds
        exhausted := false, windDown := 0, heldTarget := heldTargetStep c i w.heldTarget
        budget := openBudget c (heldTargetStep c i w.heldTarget) } :=
  if_pos h

theorem stepClosed_stays (h : openCondition c i = false) :
    stepClosed c i w = { w with heldTarget := heldTargetStep c i w.heldTarget, budget := 0 } :=
  if_neg (by simp [h])

/-- What every step from OPEN does: a round less, exhaustion at the last, the held target. -/
def openCounted : OwnWindow :=
  { w with
    maxDuration := w.maxDuration - 1, exhausted := w.exhausted || decide (w.maxDuration - 1 = 0)
    heldTarget := heldTargetStep c i w.heldTarget }

/-- At the first step of the wind-down the budget is the whole base. -/
theorem stepOpen_closes (h : closeCondition c i (openCounted c i w).exhausted = true) (hw : 1 ≤ c.windDown) :
    stepOpen c i w =
      { openCounted c i w with state := .winding, base := w.budget, windDown := c.windDown, budget := w.budget } := by
  have whole : w.budget * c.windDown / c.windDown = w.budget := Nat.mul_div_cancel _ hw
  refine (if_pos h).trans ?_
  rw [whole]
  rfl

theorem stepOpen_stays (h : closeCondition c i (openCounted c i w).exhausted = false) :
    stepOpen c i w = { openCounted c i w with budget := openBudget c (heldTargetStep c i w.heldTarget) } :=
  if_neg (by simpa [openCounted] using h)

theorem stepWinding_reopens (h : openCondition c i = true) (he : w.exhausted = false) :
    stepWinding c i w =
      { w with
        state := .opened, windDown := 0, heldTarget := heldTargetStep c i w.heldTarget
        budget := openBudget c (heldTargetStep c i w.heldTarget) } :=
  if_pos (by simp [h, he])

/-- A winding window that does not reopen counts down; at the last count it is CLOSED. -/
theorem stepWinding_counts (h : openCondition c i = false ∨ w.exhausted = true) :
    stepWinding c i w =
      if w.windDown ≤ 1 then
        { w with
          state := .closed, windDown := 0, base := 0, heldTarget := heldTargetStep c i w.heldTarget, budget := 0 }
      else
        { w with
          windDown := w.windDown - 1, heldTarget := heldTargetStep c i w.heldTarget
          budget := w.base * (w.windDown - 1) / c.windDown } := by
  have stays : ¬(openCondition c i && !w.exhausted) = true := by
    obtain h | h := h <;> simp [h]
  refine (if_neg stays).trans ?_
  simp only [Nat.sub_eq_zero_iff_le]

end

section
variable {c : Configuration} {i : StepInput} {w : OwnWindow}

theorem stepWindow_of_closed (h : w.state = .closed) : stepWindow c i w = stepClosed c i w := by
  rw [stepWindow, h]

theorem stepWindow_of_opened (h : w.state = .opened) : stepWindow c i w = stepOpen c i w := by
  rw [stepWindow, h]

theorem stepWindow_of_winding (h : w.state = .winding) : stepWindow c i w = stepWinding c i w := by
  rw [stepWindow, h]

end

/-! ### The window notices (R96, R97) -/

theorem windowNotices_staysClosed {held adopted : SignalPart} (ha : adopted.state = .closed)
    (hh : held.state = .closed) : windowNotices held adopted = [] := by
  rw [windowNotices, if_pos ha, if_pos hh]

theorem windowNotices_closes {held adopted : SignalPart} (ha : adopted.state = .closed)
    (hh : held.state ≠ .closed) : windowNotices held adopted = [numbered .windowClosed held.sequence] := by
  rw [windowNotices, if_pos ha, if_neg hh]

theorem windowNotices_opens {held adopted : SignalPart} (ha : adopted.state ≠ .closed)
    (hh : held.state = .closed ∨ held.sequence ≠ adopted.sequence) :
    windowNotices held adopted = [numbered .windowOpened adopted.sequence] := by
  rw [windowNotices, if_neg ha, if_pos hh]

theorem windowNotices_sameWindow {held adopted : SignalPart} (ha : adopted.state ≠ .closed)
    (hh : held.state ≠ .closed) (hseq : held.sequence = adopted.sequence) :
    windowNotices held adopted =
      if adopted.state = .opened ∧ held.budget ≠ adopted.budget then [numbered .targetChanged adopted.budget]
      else [] := by
  rw [windowNotices, if_neg ha, if_neg (by simp [hh, hseq])]

/-- Settles O54: the conditions of the sample and of the step, then the step state by state, then the notices. -/
theorem windowStepsAndNotices : Obligations.WindowStepsAndNotices := by
  unfold Obligations.WindowStepsAndNotices
  refine ⟨fun _ _ => rfl, lineMatches_iff, fun c previous levels matched minute held => ?conditions,
    fun c i w => ?steps, fun held adopted => ⟨windowNotices_staysClosed, windowNotices_closes,
      windowNotices_opens, windowNotices_sameWindow⟩⟩
  case conditions =>
    simp only [← Configuration.shows_iff, ← matchCounts_iff]
    refine ⟨patternMatch_iff, patternClose_iff, fun h => insideClock_sameDay h minute,
      fun h => insideClock_overMidnight h minute, openCondition_iff, fun _ => closeCondition_iff,
      heldTargetStep_kept (i := ⟨matched, previous, levels, minute⟩) held,
      fun hm hc => ⟨fun k l hl hs hfirst => ?first, fun hnone => ?unshown⟩⟩
    case first => rw [heldTargetStep_counted held hm hc, matchingLines_head hl hs hfirst]; rfl
    case unshown =>
      have empty : matchingLines c previous levels = [] :=
        Decidable.byContradiction fun hne => not_exists.mpr hnone (matchingLines_ne_nil.mp hne)
      rw [heldTargetStep_counted held hm hc, empty]
      rfl
  case steps =>
    simp only [← openBudget_eq]
    refine ⟨fun hw hopen => ?_, fun hw hopen => ?_, fun hw => ⟨fun hclose hwind => ?_, fun hclose => ?_⟩,
      fun hw => ⟨fun hopen he => ?_, fun hstays => ⟨fun hlast => ?_, fun hmore => ?_⟩⟩⟩
    · rw [stepWindow_of_closed hw, stepClosed_opens c i w hopen]
    · rw [stepWindow_of_closed hw, stepClosed_stays c i w hopen]
    · rw [stepWindow_of_opened hw, stepOpen_closes c i w hclose hwind]; rfl
    · rw [stepWindow_of_opened hw, stepOpen_stays c i w hclose]; rfl
    · rw [stepWindow_of_winding hw, stepWinding_reopens c i w hopen he]
    · rw [stepWindow_of_winding hw, stepWinding_counts c i w hstays, if_pos hlast]
    · rw [stepWindow_of_winding hw, stepWinding_counts c i w hstays, if_neg (Nat.not_le.mpr hmore)]

end Sys2Proof.Machine
end

section
/-! The readiness figures: estimate, floor, offer, and the deviation test (R104 to R107, R111, R148; O45 to O48). -/

namespace Sys2Proof.Machine

/-! ### Rounding up -/

/-- A quotient rounded up is the least number that, times the divisor, is no smaller than the dividend. -/
theorem ceilDiv_le_iff {a b c : Nat} (hb : 0 < b) : ceilDiv a b ≤ c ↔ a ≤ c * b := by
  unfold ceilDiv
  rw [Nat.div_le_iff_le_mul_add_pred hb, Nat.mul_comm b c]
  omega

/-- The least whole count of kWh that holds a tally is the tally in kWh rounded up. -/
theorem ceilDiv_eq_of_least {a b n : Nat} (hb : 0 < b) (h : a ≤ n * b) (least : ∀ k, a ≤ k * b → n ≤ k) :
    ceilDiv a b = n :=
  Nat.le_antisymm ((ceilDiv_le_iff hb).mpr h) (least _ ((ceilDiv_le_iff hb).mp (Nat.le_refl _)))

theorem ceilDiv_pos {a b : Nat} (hb : 0 < b) (ha : 0 < a) : 0 < ceilDiv a b := by
  refine Nat.pos_of_ne_zero fun hzero => ?_
  have := (ceilDiv_le_iff hb).mp (Nat.le_of_eq hzero)
  omega

/-! ### The four figures of a computation (R103) -/

section
variable {r : ReadinessUnit} (causes : HoldCauses)

theorem ReadinessUnit.computed_estimate_some (cfg : Option Configuration) {p : BusProfile} {h : HeldReading}
    (hp : r.profile = some p) (hh : r.reading = some h) :
    (r.computed causes cfg).estimate = some (energyEstimate p h) := by
  simp only [ReadinessUnit.computed, hp, hh]

theorem ReadinessUnit.computed_estimate_none (cfg : Option Configuration) (h : r.profile = none ∨ r.reading = none) :
    (r.computed causes cfg).estimate = none := by
  obtain h | h := h
  · simp only [ReadinessUnit.computed, h]
  · simp only [ReadinessUnit.computed, h]
    cases r.profile <;> rfl

theorem ReadinessUnit.computed_floor (c : Configuration) :
    (r.computed causes (some c)).floor = r.profile.map fun p => readinessFloor p c.windowEnd := by
  simp only [ReadinessUnit.computed]
  cases r.profile <;> rfl

theorem ReadinessUnit.computed_offerEnergy (cfg : Option Configuration) :
    (r.computed causes cfg).offerEnergy =
      offerEnergyOf (r.computed causes cfg).estimate (r.computed causes cfg).floor := rfl

theorem ReadinessUnit.computed_offerPower (c : Configuration) :
    (r.computed causes (some c)).offerPower =
      offerPowerOf r.reading c.stageRating (r.computed causes (some c)).offerEnergy causes := rfl

end

/-! ### The energy estimate (R104) -/

theorem energyEstimate_le (p : BusProfile) (h : HeldReading) : energyEstimate p h ≤ p.capacity * h.charge / 1000 :=
  Nat.sub_le _ _

/-- The tally in whole kWh rounded up is the least whole count of kWh that holds it. -/
theorem energyEstimate_cast (p : BusProfile) (h : HeldReading) {spent : Nat} (hspent : h.tally ≤ spent * 3600000000)
    (least : ∀ k, h.tally ≤ k * 3600000000 → spent ≤ k) :
    (energyEstimate p h : Int) = max 0 (((p.capacity * h.charge / 1000 : Nat) : Int) - spent) := by
  have hceil : ceilDiv h.tally tallyPerKwh = spent := ceilDiv_eq_of_least (by decide) hspent least
  unfold energyEstimate
  rw [hceil]
  omega

/-- A capacity of 400 kWh at most bounds the estimate. -/
theorem energyEstimate_le_400 {p : BusProfile} {h : HeldReading} (hcapacity : p.capacity ≤ 400)
    (hcharge : h.charge ≤ 1000) : energyEstimate p h ≤ 400 := by
  have hproduct : p.capacity * h.charge ≤ 400 * 1000 := Nat.mul_le_mul hcapacity hcharge
  have := energyEstimate_le p h
  omega

/-- A tally above 0 costs at least one kWh. -/
theorem energyEstimate_lt_of_tally (p : BusProfile) {h : HeldReading} (htally : 0 < h.tally) :
    energyEstimate p h ≤ p.capacity * h.charge / 1000 - 1 := by
  have : 0 < ceilDiv h.tally tallyPerKwh := ceilDiv_pos (by decide) htally
  unfold energyEstimate
  omega

/-! ### The readiness floor (R105) -/

theorem refillMinutes_cast (p : BusProfile) (windowEnd : Nat) :
    (refillMinutes p windowEnd : Int) = ((p.departure : Int) - (windowEnd : Int)) % 1440 := by
  unfold refillMinutes
  omega

theorem refillCredit_cast (p : BusProfile) (windowEnd : Nat) :
    (refillCredit p windowEnd : Int) =
      (p.chargeLimit : Int) * (((p.departure : Int) - (windowEnd : Int)) % 1440) * 9 / 600 := by
  rw [← refillMinutes_cast]
  unfold refillCredit
  rw [Int.natCast_ediv, Int.natCast_mul, Int.natCast_mul]
  rfl

/-- The larger of hard floor and need less credit, never more than the capacity, as integers. -/
theorem readinessFloor_cast (p : BusProfile) (windowEnd : Nat) :
    (readinessFloor p windowEnd : Int) =
      min (p.capacity : Int)
        (max (ceilDiv (p.capacity * p.hardFloor) 100 : Int)
          ((routeNeed p : Int) - (refillCredit p windowEnd : Int))) := by
  unfold readinessFloor
  omega

theorem readinessFloor_le (p : BusProfile) (windowEnd : Nat) : readinessFloor p windowEnd ≤ p.capacity :=
  Nat.min_le_left _ _

/-! ### The offer (R106, R107) -/

theorem offerEnergyOf_some (e f : Nat) : offerEnergyOf (some e) (some f) = e - f := rfl

theorem offerEnergyOf_none {e f : Option Nat} (h : e = none ∨ f = none) : offerEnergyOf e f = 0 := by
  obtain rfl | rfl := h
  · rfl
  · cases e <;> rfl

theorem temperatureFactored_le (t : Int) (base : Nat) : temperatureFactored t base ≤ base := by
  unfold temperatureFactored
  repeat' split
  all_goals omega

theorem offerPowerOf_zero {reading : Option HeldReading} {rating energy : Nat} {causes : HoldCauses}
    (h : reading = none ∨ energy = 0 ∨ causes ≠ .empty) : offerPowerOf reading rating energy causes = 0 := by
  cases reading with
  | none => rfl
  | some r => exact if_pos (h.resolve_left nofun)

theorem offerPowerOf_offered {r : HeldReading} {rating energy : Nat} {causes : HoldCauses} (he : energy ≠ 0)
    (hc : causes = .empty) :
    offerPowerOf (some r) rating energy causes = temperatureFactored r.temperature (min r.dischargeLimit rating) :=
  if_neg (by simp [he, hc])

/-- Offer power never exceeds the stage rating (R107). -/
theorem offerPowerOf_le (reading : Option HeldReading) (rating energy : Nat) (causes : HoldCauses) :
    offerPowerOf reading rating energy causes ≤ rating := by
  by_cases h : reading = none ∨ energy = 0 ∨ causes ≠ .empty
  · rw [offerPowerOf_zero h]
    exact Nat.zero_le _
  · cases reading with
    | none => exact absurd (.inl rfl) h
    | some r =>
      have henergy : energy ≠ 0 := fun he => h (.inr (.inl he))
      have hcauses : causes = .empty := Classical.not_not.mp fun hc => h (.inr (.inr hc))
      rw [offerPowerOf_offered henergy hcauses]
      exact Nat.le_trans (temperatureFactored_le _ _) (Nat.min_le_right _ _)

/-- Settles O47: energy by which figures are present, power by the conditions of R107 and the temperature's band. -/
theorem offerFigures : Obligations.OfferFigures := by
  unfold Obligations.OfferFigures
  intro r causes c R
  have energy : R.offerEnergy = offerEnergyOf R.estimate R.floor := ReadinessUnit.computed_offerEnergy causes (some c)
  have power : R.offerPower = offerPowerOf r.reading c.stageRating R.offerEnergy causes :=
    ReadinessUnit.computed_offerPower causes c
  refine ⟨rfl, ?difference, ?nothing, ?absent, fun causes' => rfl, ?noPower, ?banded, ?rated⟩
  case difference =>
    intro e f he hf _
    rw [energy, he, hf, offerEnergyOf_some]
  case nothing =>
    intro e f he hf hle
    rw [energy, he, hf, offerEnergyOf_some]
    omega
  case absent => exact fun h => energy.trans (offerEnergyOf_none h)
  case noPower => exact fun h => power.trans (offerPowerOf_zero h)
  case banded =>
    intro h hreading henergy hcauses base
    have factored : R.offerPower = temperatureFactored h.temperature base := by
      rw [power, hreading, offerPowerOf_offered henergy hcauses]
    rw [factored]
    unfold temperatureFactored
    refine ⟨fun _ => ?_, fun _ _ => ?_, fun _ _ => ?_, fun _ => ?_⟩
    all_goals
      repeat' split
      all_goals omega
  case rated => exact Nat.le_trans (power ▸ offerPowerOf_le _ _ _ _)

/-! ### The deviation test (R111, R148) -/

theorem deviates_iff (measured applied : Nat) :
    deviates measured applied = true ↔
      max 3 (applied / 10) < ((measured : Int) - (applied : Int)).natAbs := by
  unfold deviates
  rw [decide_eq_true_iff]
  omega

theorem deviationStep_same (count : Nat) (flag : Bool) : deviationStep count flag flag = (0, flag) := if_pos rfl

theorem deviationStep_other (count : Nat) (flag : Bool) :
    deviationStep count flag (!flag) = if 3 ≤ count + 1 then (0, !flag) else (count + 1, flag) :=
  if_neg (by cases flag <;> decide)

theorem announcedFor_measured {r : ReadinessUnit} {h : HeldReading} {applied : Nat} (hr : r.reading = some h)
    (hf : r.deviationFlag = true) (hm : applied < h.measured) : announcedFor r applied = h.measured := by
  simp only [announcedFor, hr]
  exact if_pos ⟨hf, hm⟩

theorem announcedFor_applied {r : ReadinessUnit} {applied : Nat}
    (h : r.reading = none ∨ r.deviationFlag = false ∨ ∀ h, r.reading = some h → h.measured ≤ applied) :
    announcedFor r applied = applied := by
  unfold announcedFor
  split
  · rename_i held hr
    refine if_neg fun ⟨hf, hm⟩ => ?_
    obtain h | h | h := h
    · cases hr.symm.trans h
    · cases hf.symm.trans h
    · exact absurd (h held hr) (Nat.not_le.mpr hm)
  · rfl

/-- Settles O48: the model's two truncated differences are the absolute one; then the count's step by the flag. -/
theorem deviationCount : Obligations.DeviationCount := by
  unfold Obligations.DeviationCount
  refine ⟨deviates_iff, fun count flag hcount => ⟨deviationStep_same count flag, fun h2 => ?_, fun hlt => ?_⟩,
    fun r applied => ⟨fun h => announcedFor_measured, announcedFor_applied⟩⟩
  · rw [deviationStep_other, if_pos (by omega)]
  · rw [deviationStep_other, if_neg (by omega)]

end Sys2Proof.Machine

namespace Sys2Proof

open Machine

/-! ### Estimate and floor: two obligations whose names the model's functions bear -/

/-- Settles O45: present with both, and then by the least count of kWh that holds the tally. -/
theorem energyEstimate : Obligations.EnergyEstimate := by
  unfold Obligations.EnergyEstimate
  intro r causes cfg e
  refine ⟨ReadinessUnit.computed_estimate_none causes cfg, fun p h hp hh => ?_⟩
  exact ⟨_, ReadinessUnit.computed_estimate_some causes cfg hp hh, fun _ => energyEstimate_cast p h,
    energyEstimate_le_400, energyEstimate_lt_of_tally p⟩

/-- Settles O46: the model's natural figures are the statement's integer ones. -/
theorem readinessFloor : Obligations.ReadinessFloor := by
  unfold Obligations.ReadinessFloor
  intro r causes c floor
  have hfloor : floor = r.profile.map fun p => Machine.readinessFloor p c.windowEnd :=
    ReadinessUnit.computed_floor causes c
  refine ⟨fun hnone => by rw [hfloor, hnone]; rfl, fun p hp => ?_⟩
  intro need minutes credit hard
  refine ⟨Machine.readinessFloor p c.windowEnd, by rw [hfloor, hp]; rfl, ?figure, Int.emod_nonneg _ (by decide),
    ?minutesInDay, ?needBound, Nat.le_trans (readinessFloor_le p c.windowEnd)⟩
  case figure =>
    rw [readinessFloor_cast, refillCredit_cast]
    rfl
  case minutesInDay =>
    have : minutes < 1440 := Int.emod_lt_of_pos _ (by decide)
    omega
  case needBound =>
    intro hneed hmargin
    have hproduct : p.need * (100 + p.coldMargin) ≤ 400 * 200 := Nat.mul_le_mul hneed (by omega)
    show (p.need * (100 + p.coldMargin) + 99) / 100 ≤ 800
    omega

end Sys2Proof
end

section
/-! What a run hands out and where its completion leaves the setpoint (R109, R123, R126, R127, R129, R131, R140,
R141, R145; O41). -/

namespace Sys2Proof.Machine

/-! ### Members of the sorted lists (R125, R126) -/

theorem mem_insertMember {m x : ChainMember} {ms : List ChainMember} :
    x ∈ insertMember m ms ↔ x = m ∨ x ∈ ms := by
  induction ms with
  | nil => simp [insertMember]
  | cons y ys ih =>
    unfold insertMember
    split
    · simp
    · simp only [List.mem_cons, ih]
      exact or_left_comm

theorem mem_sortChain {x : ChainMember} {ms : List ChainMember} : x ∈ sortChain ms ↔ x ∈ ms := by
  induction ms with
  | nil => rfl
  | cons m ms ih => rw [sortChain, mem_insertMember, ih, List.mem_cons]

theorem mem_insertPair {p x : Nat × Nat} {ps : List (Nat × Nat)} : x ∈ insertPair p ps ↔ x = p ∨ x ∈ ps := by
  induction ps with
  | nil => simp [insertPair]
  | cons y ys ih =>
    unfold insertPair
    split
    · simp
    · simp only [List.mem_cons, ih]
      exact or_left_comm

theorem mem_sortPairs {x : Nat × Nat} {ps : List (Nat × Nat)} : x ∈ sortPairs ps ↔ x ∈ ps := by
  induction ps with
  | nil => rfl
  | cons p ps ih => rw [sortPairs, mem_insertPair, ih, List.mem_cons]

theorem RoundView.mem_grantList {v : RoundView} {q : Nat × Nat} :
    q ∈ v.grantList ↔ ∃ p ∈ v.grants, (p.1.number, p.2) = q := by
  rw [RoundView.grantList, mem_sortPairs, List.mem_map]

/-! ### A grant never exceeds the member's offer power (R126) -/

/-- Pass 2 adds to what pass 1 gave, up to the offer power. -/
theorem mem_passTwo {p : ChainMember × Nat} {r : Nat} {gs : List (ChainMember × Nat)} (h : p ∈ passTwo r gs)
    (hgs : ∀ q ∈ gs, q.2 ≤ q.1.power) : p.1 ∈ gs.map Prod.fst ∧ p.2 ≤ p.1.power := by
  induction gs generalizing r with
  | nil => cases h
  | cons q gs ih =>
    obtain ⟨m, g⟩ := q
    rw [passTwo, List.mem_cons] at h
    obtain rfl | h := h
    · have hg : g ≤ m.power := hgs (m, g) List.mem_cons_self
      exact ⟨List.mem_cons_self, by show g + min (m.power - g) r ≤ m.power; omega⟩
    · obtain ⟨hmem, hle⟩ := ih h fun q hq => hgs q (List.mem_cons_of_mem _ hq)
      exact ⟨List.mem_cons_of_mem _ hmem, hle⟩

theorem mem_twoPasses {p : ChainMember × Nat} {a : Nat} {ms : List ChainMember} (h : p ∈ twoPasses a ms) :
    p.1 ∈ ms ∧ p.2 ≤ p.1.power := by
  cases ms with
  | nil => cases h
  | cons m ms =>
    obtain ⟨hmem, hle⟩ := mem_passTwo h fun q hq => by
      obtain ⟨x, -, rfl⟩ := List.mem_map.mp hq
      exact Nat.min_le_left _ _
    refine ⟨?_, hle⟩
    rwa [passOne, List.map_map, show Prod.fst ∘ _ = id from rfl, List.map_id] at hmem

theorem RoundView.grants_le {v : RoundView} {p : ChainMember × Nat} (h : p ∈ v.grants) :
    p.1 ∈ v.candidates ∧ p.2 ≤ p.1.power := by
  obtain ⟨hmem, hle⟩ := mem_twoPasses h
  exact ⟨mem_sortChain.mp hmem, hle⟩

/-! ### The own chain grant (R127) -/

/-- The grant of the own number among the view's, or 0 where it is no chain member. -/
theorem RoundView.ownChainGrant_cases (v : RoundView) :
    (∃ p ∈ v.grants, p.1.number = v.ownNumber ∧ v.ownChainGrant = p.2) ∨
      ((∀ p ∈ v.grants, p.1.number ≠ v.ownNumber) ∧ v.ownChainGrant = 0) := by
  unfold RoundView.ownChainGrant
  split
  · rename_i q hq
    obtain ⟨p, hp, rfl⟩ := RoundView.mem_grantList.mp (List.mem_of_find?_eq_some hq)
    exact .inl ⟨p, hp, by simpa using List.find?_some hq, rfl⟩
  · rename_i hnone
    refine .inr ⟨fun p hp => ?_, rfl⟩
    simpa using List.find?_eq_none.mp hnone _ (RoundView.mem_grantList.mpr ⟨p, hp, rfl⟩)

/-! ### The stations known (R129) -/

theorem getLsbD_union (sets : List StationSet) (heard : StationSet) (k : Nat) :
    (sets.foldl (· ||| ·) heard).getLsbD k = (heard.getLsbD k || sets.any fun r => r.getLsbD k) := by
  induction sets generalizing heard with
  | nil => simp
  | cons r sets ih => rw [List.foldl_cons, ih, BitVec.getLsbD_or, List.any_cons, Bool.or_assoc]

/-- M counts the stations of the heard set and of every roster. -/
theorem RoundView.known_eq (v : RoundView) :
    v.known =
      ((List.range 32).filter fun k => v.heard.getLsbD k || v.rosters.any fun r => r.getLsbD k).length := by
  simp only [RoundView.known, setSize, getLsbD_union]

/-! ### A completion, whole (R109, R131, R140, R141) -/

/-- Floor hold after the completion of a view's run (R109). -/
def ReadinessUnit.heldAfter (r : ReadinessUnit) (v : RoundView) : Bool :=
  r.floorHold && (r.holdAfterView || decide (v.ownOffer.power = 0))

theorem State.settleFloorHold_heldAfter (v : RoundView) (m : State) :
    m.settleFloorHold v = { m with readiness := { m.readiness with floorHold := m.readiness.heldAfter v } } :=
  State.settleFloorHold_eq v m

/-- The target of a completion, at the configuration latched (R140, R141). -/
theorem State.exportTarget_eq {m : State} {c : Configuration} (hc : m.control.configuration = some c) (g : Nat) :
    m.exportTarget g =
      if m.control.state = .member ∧ m.readiness.floorHold = false then
        if g ≤ m.setpoint.applied then g else min g (m.setpoint.applied + c.rampStep)
      else 0 := by
  unfold State.exportTarget
  rw [hc]
  cases m.control.state with
  | member => cases m.readiness.floorHold <;> rfl
  | offline | joining | holding | leaving | faulted => rfl

/-- The target once floor hold is settled. -/
theorem State.settledTarget_eq {m : State} {c : Configuration} (hc : m.control.configuration = some c)
    (v : RoundView) (g : Nat) :
    (m.settleFloorHold v).exportTarget g =
      if m.control.state = .member ∧ m.readiness.heldAfter v = false then
        if g ≤ m.setpoint.applied then g else min g (m.setpoint.applied + c.rampStep)
      else 0 := by
  have held : (m.settleFloorHold v).readiness.floorHold = m.readiness.heldAfter v := by
    rw [State.settleFloorHold_heldAfter]
  rw [State.exportTarget_eq (c := c) (by simpa using hc), held]
  simp only [State.settleFloorHold_keeps]

/-- What a completion stores, and the setpoint it leaves. -/
theorem State.completeRun_eq (v : RoundView) (m : State) :
    let g := v.ownGrant m.grant.splitSeen
    m.completeRun v =
      { m with
        grant :=
          { m.grant with
            ownGrant := g, digest := v.grantDigest, digestRound := some v.round, runStatus := .completed }
        timer := { m.timer with runMisses := 0, outcome := .completed }
        readiness := { m.readiness with floorHold := m.readiness.heldAfter v }
        setpoint :=
          m.setpoint.at_ ((m.settleFloorHold v).exportTarget g) m.control.configuration m.readiness
        notices :=
          folded m.enabled m.timer.roundCount (if g = m.grant.ownGrant then [] else [grantNotice g]) m.notices } := by
  dsimp only
  unfold State.completeRun
  simp only [State.settleFloorHold_heldAfter]
  by_cases h : v.ownGrant m.grant.splitSeen = m.grant.ownGrant
  · rw [if_pos h, if_pos h]
    rfl
  · rw [if_neg h, if_neg h, State.notice_eq, State.notice_notices]
    rfl

section
variable {dt : Nat} {s : State}

theorem exec_runCompletion (hr : s.running = true) :
    exec (.runCompletion dt) s = .next (s.advance dt).runCompletes.settle := happens_running hr

/-- With no run in flight, or more than 100 ms after its freeze, a command completes nothing (log entry 3). -/
theorem State.runCompletes_idle
    (h : s.grant.runStatus ≠ .inFlight ∨ s.grant.view = none ∨
      ∃ v, s.grant.view = some v ∧ v.frozenAt + 100000 < s.now) : s.runCompletes = s := by
  unfold State.runCompletes
  split
  · rename_i v hstatus hview
    refine if_neg fun hnow => ?_
    obtain h | h | ⟨w, hw, hlate⟩ := h
    · exact h hstatus
    · cases hview.symm.trans h
    · cases hview.symm.trans hw
      exact Int.not_le.mpr hlate hnow
  · rfl

theorem State.runCompletes_due {v : RoundView} (hstatus : s.grant.runStatus = .inFlight)
    (hview : s.grant.view = some v) (hnow : s.now ≤ v.frozenAt + 100000) : s.runCompletes = s.completeRun v := by
  simp only [State.runCompletes, hstatus, hview]
  exact if_pos hnow

end

/-- Settles O41: the grant and M of a view, the duty, then the command without a run to complete and with one. -/
theorem runsComplete : Obligations.RunsComplete := by
  unfold Obligations.RunsComplete
  refine ⟨fun v => ⟨v.ownChainGrant_cases, v.known_eq⟩, fun c applied => ⟨rfl, rfl⟩, ?idle, ?completed⟩
  case idle =>
    intro dt s hr h
    rw [exec_runCompletion hr, State.runCompletes_idle (by simpa using h)]
  case completed =>
    intro dt s v c hr hstatus hview hc m hnow g hold target
    obtain ⟨-, -, mt, mc, -, -, mg, ms, -, mn, -⟩ := State.advance_keeps dt s
    have menabled : m.enabled = s.enabled :=
      State.enabled_of_configuration (congrArg StationControl.configuration mc)
    have hheld : m.readiness.heldAfter v = hold := by
      simp [ReadinessUnit.heldAfter, m, hold]
    have htarget : (m.settleFloorHold v).exportTarget g = target := by
      rw [State.settledTarget_eq (c := c) (by rw [mc, hc]), hheld, mc, ms]
    rw [exec_runCompletion hr, State.runCompletes_due (by rw [mg]; exact hstatus) (by rw [mg]; exact hview) hnow,
      State.completeRun_eq]
    rw [show v.ownGrant m.grant.splitSeen = g by rw [mg]; rfl, htarget, hheld, menabled, mg, mt, mc, mn]

end Sys2Proof.Machine
end

section
/-! What a step can do, said once: a predicate that the commands' meanings keep is kept by every step. -/

namespace Sys2Proof.Machine

/-- A change of a well-formed state that keeps a predicate. -/
def Keeps (P : State → Prop) (f : State → State) : Prop := ∀ s, StationWf s → P s → P (f s)

/-- A predicate that each meaning keeps: time, IRQ and the queue, the supply and the inputs, the post link, what is
heard, the events of a round, and what becomes of an own transmission. -/
structure KeptByEvents (P : State → Prop) : Prop where
  advance : ∀ dt, Keeps P (State.advance dt)
  settle : ∀ s, P s → P s.settle
  queue : ∀ rest, Keeps P fun s => { s with pending := rest }
  inputs : ∀ i, Keeps P fun s => { s with inputs := i }
  powerOn : ∀ i, Keeps P fun s => { s.powerOnValues with inputs := i }
  transact : ∀ straps selector bytes, Keeps P (State.transact straps selector bytes)
  transmissionEnds : ∀ r grantFirst, Keeps P (State.transmissionEnds r grantFirst)
  lineWentIdle : Keeps P State.lineWentIdle
  timerExpires : ∀ idle, Keeps P (State.timerExpires idle)
  slotOpens : ∀ idle, Keeps P (State.slotOpens idle)
  allocationPoint : ∀ order, Keeps P (State.allocationPoint order)
  runCompletes : Keeps P State.runCompletes
  frameStarts : ∀ s, StationWf s → P s → ∀ opening f, s.line.transmitter = .waiting opening f →
    P { s with line := { s.line with transmitter := .sending s.now f } }
  frameBlocked : ∀ s, StationWf s → P s → ∀ opening f, s.line.transmitter = .waiting opening f →
    P (State.leaveNotSent f { s with line := { s.line with transmitter := .silent } })
  frameSent : ∀ s, StationWf s → P s → ∀ start f, s.line.transmitter = .sending start f → P (s.outcomeSent f)
  frameCut : ∀ s, StationWf s → P s → ∀ start f grantFirst, s.line.transmitter = .sending start f →
    P (s.outcomeCut f grantFirst)
  markStopped : ∀ s, StationWf s → P s → ∀ start, s.line.transmitter = .mark start →
    P { s with line := s.line.stopped s.now }
  plugFell : Keeps P State.plugFell
  plugRose : Keeps P State.plugRose
  stopPressed : Keeps P State.stopPressed
  stopFreed : Keeps P State.stopFreed
  readingLapses : Keeps P State.readingLapses
  periodStarts : Keeps P State.periodStarts

namespace KeptByEvents

variable {P : State → Prop} {f : State → State} {dt : Nat} {s t : State}

theorem of_happensAtInputs (hP : KeptByEvents P) (hf : Keeps P f) (h : happensAtInputs dt f s = .next t)
    (hs : StationWf s) (hp : P s) : P t := by
  cases h
  exact hP.settle _ (hf _ (State.advance_stationWf hs dt) (hP.advance dt s hs hp))

theorem whenRunning (hf : Keeps P f) : Keeps P (State.whenRunning f) := by
  intro s hs hp
  unfold State.whenRunning
  split
  · exact hf s hs hp
  · exact hp

theorem of_happens (hP : KeptByEvents P) (hf : Keeps P f) (h : happens dt f s = .next t) (hs : StationWf s)
    (hp : P s) : P t :=
  hP.of_happensAtInputs (whenRunning hf) h hs hp

/-- A level that changes, and what follows of it while the part works. -/
theorem inputChanged (hP : KeptByEvents P) (hf : Keeps P f) (i : Inputs) :
    Keeps P fun s => State.whenRunning f { s with inputs := i } :=
  fun s hs hp => whenRunning hf _ hs (hP.inputs i s hs hp)

theorem exec (hP : KeptByEvents P) {c : Instr} (h : Machine.exec c s = .next t) (hs : StationWf s) (hp : P s) :
    P t := by
  cases c with
  | powerOn | powerLoss | resetAssert =>
    simp only [Machine.exec, execPowerOn, execPowerLoss, execResetAssert] at h
    exact hP.of_happensAtInputs (fun s => hP.powerOn _ s) h hs hp
  | resetRelease =>
    simp only [Machine.exec, execResetRelease] at h
    refine hP.of_happensAtInputs (fun s hs hp => ?_) h hs hp
    split
    · exact hP.powerOn _ s hs hp
    · exact hp
  | ignoredTransaction | writeRequest | readResponse | readFlags | start | profile | reading | availAvailable
  | availWithdrawn | takeNotice | peer | status | leave | restart =>
    exact hP.of_happens (hP.transact _ _ _) h hs hp
  | transmissionEnd dt r grantFirst => exact hP.of_happens (hP.transmissionEnds r grantFirst) h hs hp
  | roundTimerExpiry dt idle => exact hP.of_happens (hP.timerExpires idle) h hs hp
  | ownSlotOpening dt idle => exact hP.of_happens (hP.slotOpens idle) h hs hp
  | allocationPoint dt order => exact hP.of_happens (hP.allocationPoint order) h hs hp
  | runCompletion => exact hP.of_happens hP.runCompletes h hs hp
  | frameStartDeferred =>
    simp only [Machine.exec, execFrameStartDeferred] at h
    refine hP.of_happens (fun s hs hp => ?_) h hs hp
    split
    · split
      · exact hP.frameStarts s hs hp _ _ ‹_›
      · exact hp
    all_goals exact hp
  | slotStartDeadline =>
    simp only [Machine.exec, execSlotStartDeadline] at h
    refine hP.of_happens (fun s hs hp => ?_) h hs hp
    split
    · split
      · exact hP.frameBlocked s hs hp _ _ ‹_›
      · exact hp
    all_goals exact hp
  | frameSent =>
    simp only [Machine.exec, execFrameSent] at h
    refine hP.of_happens (fun s hs hp => ?_) h hs hp
    split
    · split
      · exact hP.frameSent s hs hp _ _ ‹_›
      · exact hp
    all_goals exact hp
  | readbackMismatch dt grantFirst =>
    simp only [Machine.exec, execReadbackMismatch] at h
    refine hP.of_happens (fun s hs hp => ?_) h hs hp
    split
    · split
      · exact hP.frameCut s hs hp _ _ grantFirst ‹_›
      · exact hp
    · exact hP.markStopped s hs hp _ ‹_›
    all_goals exact hp
  | plugFall =>
    simp only [Machine.exec, execPlugFall] at h
    refine hP.of_happensAtInputs (fun s hs hp => ?_) h hs hp
    split
    · exact hP.inputChanged hP.plugFell _ s hs hp
    · exact hp
  | plugRise =>
    simp only [Machine.exec, execPlugRise] at h
    refine hP.of_happensAtInputs (fun s hs hp => ?_) h hs hp
    split
    · exact hp
    · exact hP.inputChanged hP.plugRose _ s hs hp
  | stopActive =>
    simp only [Machine.exec, execStopActive] at h
    refine hP.of_happensAtInputs (fun s hs hp => ?_) h hs hp
    split
    · exact hp
    · exact hP.inputChanged hP.stopPressed _ s hs hp
  | stopRelease =>
    simp only [Machine.exec, execStopRelease] at h
    refine hP.of_happensAtInputs (fun s hs hp => ?_) h hs hp
    split
    · exact hP.inputChanged hP.stopFreed _ s hs hp
    · exact hp
  | gridInputChange =>
    simp only [Machine.exec, execGridInputChange] at h
    exact hP.of_happensAtInputs (fun s => hP.inputs _ s) h hs hp
  | readingLapse => exact hP.of_happens hP.readingLapses h hs hp
  | lineIdleAfterStart => exact hP.of_happens hP.lineWentIdle h hs hp
  | stagePeriodStart => exact hP.of_happens hP.periodStarts h hs hp

/-- An idle step keeps everything; any other is a command on the rest of the queue. -/
theorem step (hP : KeptByEvents P) (h : Machine.step s = .next t) (hs : StationWf s) (hp : P s) : P t := by
  unfold Machine.step at h
  split at h
  · cases h
    exact hp
  · exact hP.exec h hs (hP.queue _ s hs hp)

end KeptByEvents

end Sys2Proof.Machine
end

section
/-! Offers and the grant within the stage rating, and STAGE's duty with them (R107, R120, R126, R145; O60). -/

namespace Sys2Proof.Machine

/-! ### The invariant, and steps that raise no offer -/

/-- The frame a transmitter has at hand. -/
def Transmitter.carried : Transmitter → Option Frame
  | .waiting _ f => some f
  | .sending _ f => some f
  | .silent => none
  | .mark _ => none

theorem ratingBound_iff (s : State) :
    RatingBound s ↔
      s.readiness.offerPower ≤ s.rating ∧ (∀ o, s.grant.sentOffer = some o → o.power ≤ s.rating) ∧
      (∀ f, s.line.transmitter.carried = some f → f.core.offerPower ≤ s.rating) ∧
      (∀ v, s.grant.view = some v →
        (∀ o, v.sent = some o → o.power ≤ s.rating) ∧ ∀ r ∈ v.peers, r.number ≠ v.ownNumber) ∧
      s.grant.ownGrant ≤ s.rating := by
  unfold RatingBound
  cases s.line.transmitter <;> simp [Transmitter.carried]

/-- A step that leaves the rating no smaller, and offers, view and grant as they were or with less in them. The offer
power may have been computed anew: a computation keeps it within the rating (R107). -/
def RaisesNoOffer (s t : State) : Prop :=
  s.rating ≤ t.rating ∧
  (t.readiness.offerPower = s.readiness.offerPower ∨ t.readiness.offerPower ≤ t.rating) ∧
  (t.grant.sentOffer = s.grant.sentOffer ∨ t.grant.sentOffer = none) ∧
  (t.line.transmitter.carried = s.line.transmitter.carried ∨ t.line.transmitter.carried = none) ∧
  t.grant.view = s.grant.view ∧ t.grant.ownGrant ≤ s.grant.ownGrant

theorem RaisesNoOffer.refl (s : State) : RaisesNoOffer s s :=
  ⟨Nat.le_refl _, .inl rfl, .inl rfl, .inl rfl, rfl, Nat.le_refl _⟩

theorem RaisesNoOffer.trans {s t u : State} (h : RaisesNoOffer s t) (h' : RaisesNoOffer t u) : RaisesNoOffer s u := by
  obtain ⟨rating, power, sent, carried, view, grant⟩ := h
  obtain ⟨rating', power', sent', carried', view', grant'⟩ := h'
  refine ⟨Nat.le_trans rating rating', ?_, ?_, ?_, view'.trans view, Nat.le_trans grant' grant⟩
  · obtain e' | e' := power'
    · rw [e']
      exact power.imp id fun h => Nat.le_trans h rating'
    · exact .inr e'
  · obtain e' | e' := sent'
    · rw [e']; exact sent
    · exact .inr e'
  · obtain e' | e' := carried'
    · rw [e']; exact carried
    · exact .inr e'

theorem RaisesNoOffer.bound {s t : State} (h : RaisesNoOffer s t) (hs : RatingBound s) : RatingBound t := by
  rw [ratingBound_iff] at hs ⊢
  obtain ⟨rating, power, sent, carried, view, grant⟩ := h
  obtain ⟨hpower, hsent, hcarried, hview, hgrant⟩ := hs
  refine ⟨?_, ?_, ?_, ?_, Nat.le_trans (Nat.le_trans grant hgrant) rating⟩
  · obtain e | e := power
    · rw [e]; exact Nat.le_trans hpower rating
    · exact e
  · intro o ho
    obtain e | e := sent
    · exact Nat.le_trans (hsent o (e ▸ ho)) rating
    · cases e.symm.trans ho
  · intro f hf
    obtain e | e := carried
    · exact Nat.le_trans (hcarried f (e ▸ hf)) rating
    · cases e.symm.trans hf
  · intro v hv
    obtain ⟨hv, hpeers⟩ := hview v (view ▸ hv)
    exact ⟨fun o ho => Nat.le_trans (hv o ho) rating, hpeers⟩

theorem Keeps.of_raisesNoOffer {f : State → State} (h : ∀ s, RaisesNoOffer s (f s)) : Keeps RatingBound f :=
  fun s _ hs => (h s).bound hs

/-- A part at its power-on values, but for what the invariant does not read. -/
theorem RatingBound.of_reset {t : State} (h : RaisesNoOffer State.reset t) : RatingBound t :=
  h.bound State.reset_ratingBound

theorem State.offlineWith_ratingBound (k : Byte) (fs : List Byte) (q : List NoticeEntry) (s : State) :
    RatingBound (s.offlineWith k fs q) :=
  RatingBound.of_reset ⟨Nat.le_refl _, .inl rfl, .inl rfl, .inl rfl, rfl, Nat.le_refl _⟩

/-! ### The shared operations -/

theorem State.rating_le_of_configuration {s t : State} (h : t.control.configuration = s.control.configuration) :
    s.rating ≤ t.rating := by
  refine Nat.le_of_eq ?_
  unfold State.rating
  rw [h]

/-- R107: an offer power just computed is within the rating. -/
theorem ReadinessUnit.computed_offerPower_le (r : ReadinessUnit) (causes : HoldCauses) (s : State) :
    (r.computed causes s.control.configuration).offerPower ≤ s.rating := by
  unfold State.rating
  cases s.control.configuration <;> exact offerPowerOf_le _ _ _ _

/-- A change that leaves configuration, grant and line, and computes the offer or leaves it. -/
theorem RaisesNoOffer.of_offer {s t : State} (hc : t.control.configuration = s.control.configuration)
    (hg : t.grant = s.grant) (hl : t.line = s.line)
    (hp : t.readiness.offerPower = s.readiness.offerPower ∨ t.readiness.offerPower ≤ s.rating) :
    RaisesNoOffer s t := by
  have rating := State.rating_le_of_configuration hc
  exact ⟨rating, hp.imp id fun h => Nat.le_trans h rating, .inl (by rw [hg]), .inl (by rw [hl]), by rw [hg],
    Nat.le_of_eq (by rw [hg])⟩

/-- A change that leaves configuration, readiness and line, and lowers the grant or leaves it. -/
theorem RaisesNoOffer.of_grant {s t : State} (hc : t.control.configuration = s.control.configuration)
    (hr : t.readiness = s.readiness) (hl : t.line = s.line)
    (hg : t.grant.sentOffer = s.grant.sentOffer ∧ t.grant.view = s.grant.view ∧
      t.grant.ownGrant ≤ s.grant.ownGrant) :
    RaisesNoOffer s t := by
  obtain ⟨sent, view, grant⟩ := hg
  exact ⟨State.rating_le_of_configuration hc, .inl (by rw [hr]), .inl sent, .inl (by rw [hl]), view, grant⟩

theorem State.computeOffer_raisesNoOffer (s : State) : RaisesNoOffer s s.computeOffer :=
  .of_offer rfl rfl rfl (.inr (ReadinessUnit.computed_offerPower_le _ _ s))

theorem State.setCauses_raisesNoOffer (c : HoldCauses) (s : State) : RaisesNoOffer s (s.setCauses c) := by
  refine .of_offer (by simp) (by simp) (by simp) ?_
  rw [State.setCauses_readiness_eq]
  split
  · exact .inl rfl
  · exact .inr (ReadinessUnit.computed_offerPower_le _ _ s)

theorem State.notice_raisesNoOffer (n : Notice) (s : State) : RaisesNoOffer s (s.notice n) :=
  .of_offer (by simp) (by simp) (by simp) (.inl (by simp))

theorem State.noticeAll_raisesNoOffer (ns : List Notice) (s : State) : RaisesNoOffer s (s.noticeAll ns) :=
  .of_offer (by simp) (by simp) (by simp) (.inl (by simp))

theorem State.zeroExport_raisesNoOffer (s : State) : RaisesNoOffer s s.zeroExport :=
  .of_offer rfl rfl rfl (.inl rfl)

theorem State.complete_raisesNoOffer (k : Byte) (r : ResultCode) (fs : List Byte) (s : State) :
    RaisesNoOffer s (s.complete k r fs) := .of_offer rfl rfl rfl (.inl rfl)

theorem State.floorTest_raisesNoOffer (s : State) : RaisesNoOffer s s.floorTest := by
  refine .of_offer (by simp) (by simp) (by simp) (.inl ?_)
  rw [State.floorTest_eq]
  split <;> simp

theorem State.deviationTest_raisesNoOffer (m : Nat) (s : State) : RaisesNoOffer s (s.deviationTest m) :=
  .of_offer (by simp) (by simp) (by simp) (.inl (by rw [State.deviationTest_eq]))

/-- A run aborted leaves offers, view and grant (R133). -/
theorem State.abortRun_raisesNoOffer (s : State) : RaisesNoOffer s s.abortRun := by
  refine .of_grant (by simp) (by simp) (by simp) ?_
  unfold State.abortRun
  split <;> simp

/-! ### Rounds (R14, R119, R131, R136) -/

theorem State.openRound_raisesNoOffer (anchor : Instant) (s : State) : RaisesNoOffer s (s.openRound anchor) := by
  refine .of_grant (by simp) (by simp) (by simp) ?_
  rw [(State.openRound_report anchor s).1]
  by_cases h : (s.opened anchor).missedRun = true
  · by_cases h1 : (s.opened anchor).timer.runMisses = 1
    · rw [State.reportRound_zeroed h h1]
      exact ⟨rfl, rfl, Nat.zero_le _⟩
    · rw [State.reportRound_counted h h1]
      exact ⟨rfl, rfl, Nat.le_refl _⟩
  · rw [State.reportRound_kept h]
    exact ⟨rfl, rfl, Nat.le_refl _⟩

/-- A change of the line that lets go of the frame at hand or keeps it. -/
theorem RaisesNoOffer.of_line {s t : State} (hc : t.control.configuration = s.control.configuration)
    (hr : t.readiness = s.readiness) (hg : t.grant = s.grant)
    (hl : t.line.transmitter.carried = s.line.transmitter.carried ∨ t.line.transmitter.carried = none) :
    RaisesNoOffer s t :=
  ⟨State.rating_le_of_configuration hc, .inl (by rw [hr]), .inl (by rw [hg]), hl, by rw [hg],
    Nat.le_of_eq (by rw [hg])⟩

theorem RatingBound.of_line {s t : State} (hs : RatingBound s)
    (hc : t.control.configuration = s.control.configuration) (hr : t.readiness = s.readiness) (hg : t.grant = s.grant)
    (hl : t.line.transmitter.carried = s.line.transmitter.carried ∨ t.line.transmitter.carried = none) :
    RatingBound t := (RaisesNoOffer.of_line hc hr hg hl).bound hs

theorem State.sendMark_raisesNoOffer (a : Instant) (idle : Bool) (s : State) : RaisesNoOffer s (s.sendMark a idle) := by
  refine .of_line (by simp) (by simp) (by simp) ?_
  unfold State.sendMark
  split
  · exact .inr rfl
  · exact .inl rfl

theorem State.timerExpires_raisesNoOffer (idle : Bool) (s : State) : RaisesNoOffer s (s.timerExpires idle) := by
  unfold State.timerExpires
  split
  · dsimp only
    split
    · exact (State.openRound_raisesNoOffer _ s).trans (State.sendMark_raisesNoOffer _ idle _)
    · exact .refl s
  · exact .refl s

/-- An own frame offers what the Readiness Unit does, or nothing (R67). -/
theorem State.ownFrame_offerPower_le (anchor : Instant) (st : AnnouncedState) (s : State) :
    (s.ownFrame anchor st).core.offerPower ≤ s.readiness.offerPower := by
  show (if st = .leaving then 0 else s.readiness.offerPower) ≤ _
  split
  · exact Nat.zero_le _
  · exact Nat.le_refl _

theorem State.handFrame_ratingBound (a opening : Instant) (st : AnnouncedState) (idle : Bool) {s : State}
    (hs : RatingBound s) : RatingBound (s.handFrame a opening st idle) := by
  rw [ratingBound_iff] at hs ⊢
  obtain ⟨hpower, hsent, -, hview⟩ := hs
  refine ⟨hpower, hsent, fun f hf => ?_, hview⟩
  obtain rfl : s.ownFrame a st = f := by
    refine Option.some.inj (Eq.trans ?_ hf)
    cases idle <;> rfl
  exact Nat.le_trans (State.ownFrame_offerPower_le a st s) hpower

theorem State.slotOpens_keepsRating (idle : Bool) : Keeps RatingBound (State.slotOpens idle) := by
  intro s _ hs
  unfold State.slotOpens
  dsimp only
  repeat' split
  · exact State.handFrame_ratingBound _ _ _ idle (s := s.slotRaised) hs
  all_goals exact hs

/-- No record of a walk bears the own number (R119). -/
theorem number_of_mem_peerRecords {own : Option Nat} {received : StationSet} {r : PeerRecord} :
    ∀ {k : Nat} {es : List PeerEntry}, r ∈ peerRecords own received k es → own ≠ some r.number
  | k, e :: es, h => by
    rw [peerRecords, List.mem_append] at h
    obtain h | h := h
    · split at h
      · split at h
        · rename_i hown
          obtain rfl := List.mem_singleton.mp h
          simp only [Bool.and_eq_true, decide_eq_true_eq] at hown
          exact Ne.symm hown.1
        · cases h
      · cases h
    · exact number_of_mem_peerRecords h

/-- The freeze: the view holds the offer of the frame SENT and no peer of the own number (R119, R120). -/
theorem State.freezeView_ratingBound {s : State} {n : Nat} (hn : s.control.number = some n) (hs : RatingBound s) :
    RatingBound s.freezeView.1 := by
  cases hc : s.control.configuration with
  | none => unfold State.freezeView; rw [hc]; exact hs
  | some c =>
    rw [ratingBound_iff] at hs
    obtain ⟨hpower, hsent, hcarried, hview, hgrant⟩ := hs
    rw [freezeView_some hc, ratingBound_iff]
    dsimp only
    split
    · refine ⟨hpower, nofun, hcarried, fun v hv => ?_, hgrant⟩
      obtain rfl : s.roundView c = v := Option.some.inj hv
      refine ⟨hsent, fun r hr hnumber => number_of_mem_peerRecords hr ?_⟩
      rw [hn, hnumber]
      show some n = some (s.control.number.getD 0)
      rw [hn]
      rfl
    · exact ⟨hpower, nofun, hcarried, hview, hgrant⟩

theorem State.joinIfDue_raisesNoOffer (s : State) : RaisesNoOffer s s.joinIfDue :=
  .of_offer (by rw [State.joinIfDue_control]) (by simp) (by simp) (.inl (by simp))

theorem State.offerAtAllocation_raisesNoOffer (s : State) : RaisesNoOffer s s.offerAtAllocation.1 := by
  rw [(State.offerAtAllocation_eq s).1]
  exact .of_offer rfl rfl rfl (.inr (ReadinessUnit.computed_offerPower_le _ _ s))

theorem State.allocate_ratingBound (order : Arrival) {s : State} {n : Nat} (hn : s.control.number = some n)
    (hs : RatingBound s) : RatingBound (s.allocate order) := by
  have judged : ∀ t : State, RaisesNoOffer s t → t.control.number = some n →
      RatingBound t.judgeIsolation.1.offerAtAllocation.1.freezeView.1 := by
    intro t ht htn
    have control := (State.judgeIsolation_control t).1
    have isolation : RaisesNoOffer t t.judgeIsolation.1 :=
      .of_offer (by rw [control]) (by simp) (by simp) (.inl (by simp))
    refine State.freezeView_ratingBound (n := n) (by simp [control, htn]) ?_
    exact ((ht.trans isolation).trans (State.offerAtAllocation_raisesNoOffer _)).bound hs
  unfold State.allocate
  refine (State.noticeAll_raisesNoOffer _ _).bound ((State.joinIfDue_raisesNoOffer _).bound (judged _ ?_ ?_))
  · exact .of_line (by simp) (by simp) (by simp) (.inl (by simp; rfl))
  · simpa using hn

theorem State.allocationPoint_keepsRating (order : Arrival) : Keeps RatingBound (State.allocationPoint order) := by
  intro s hw hs
  unfold State.allocationPoint
  split
  · rename_i a ha
    obtain ⟨n, hn, -⟩ := hw.number_of_anchor ha
    split
    · exact State.allocate_ratingBound order hn hs
    · exact hs
  · exact hs

/-- The own station takes part with the offer its frame carried (R120). -/
theorem RoundView.ownMember_le {v : RoundView} {rating : Nat} (hsent : ∀ o, v.sent = some o → o.power ≤ rating)
    {m : ChainMember} (hm : m ∈ v.ownMember) : m.power ≤ rating := by
  unfold RoundView.ownMember at hm
  split at hm
  · rename_i o ho
    split at hm
    · obtain rfl := List.mem_singleton.mp hm
      exact hsent o ho
    · cases hm
  · cases hm

/-- The own grant is no greater than the offer power the own frame carried (R120, R126, R127). -/
theorem RoundView.ownGrant_le {v : RoundView} {rating : Nat} (hsent : ∀ o, v.sent = some o → o.power ≤ rating)
    (hpeers : ∀ r ∈ v.peers, r.number ≠ v.ownNumber) (split : Bool) : v.ownGrant split ≤ rating := by
  have chain : v.ownChainGrant ≤ rating := by
    obtain ⟨p, hp, hnumber, hgrant⟩ | ⟨-, hzero⟩ := v.ownChainGrant_cases
    · obtain ⟨hmem, hle⟩ := RoundView.grants_le hp
      rw [hgrant]
      refine Nat.le_trans hle ?_
      obtain hown | hpeer := List.mem_append.mp hmem
      · exact RoundView.ownMember_le hsent hown
      · obtain ⟨r, hr, hmember⟩ := List.mem_map.mp hpeer
        rw [← hmember] at hnumber
        exact absurd hnumber (hpeers r (List.mem_filter.mp hr).1)
    · rw [hzero]
      exact Nat.zero_le _
  unfold RoundView.ownGrant
  split
  · exact Nat.zero_le _
  · split
    · exact Nat.le_trans (Nat.min_le_left _ _) chain
    · exact chain

theorem State.runCompletes_keepsRating : Keeps RatingBound State.runCompletes := by
  intro s _ hs
  unfold State.runCompletes
  split
  · rename_i v _ hv
    split
    · rw [ratingBound_iff] at hs ⊢
      obtain ⟨hpower, hsent, hcarried, hview, -⟩ := hs
      obtain ⟨hoffer, hpeers⟩ := hview v hv
      rw [State.completeRun_eq]
      exact ⟨hpower, hsent, hcarried, hview, RoundView.ownGrant_le hoffer hpeers _⟩
    · exact hs
  · exact hs

/-! ### Frames heard, and entry into FAULTED (R8, R15 to R18, R134) -/

theorem State.enterFaulted_raisesNoOffer (e : Evidence) (grantFirst : Bool) (s : State) :
    RaisesNoOffer s (s.enterFaulted e grantFirst) := by
  have carried : (s.line.frameStopped s.now).transmitter.carried = s.line.transmitter.carried ∨
      (s.line.frameStopped s.now).transmitter.carried = none := by
    unfold LineInterface.frameStopped
    split <;> simp [Transmitter.carried]
  refine ⟨State.rating_le_of_configuration ?_, .inl (by simp), .inl ?_, ?_, ?_, ?_⟩
  all_goals simp only [State.enterFaulted, State.noticeAll_keeps, State.zeroExport_keeps, State.completeFaulted_keeps]
  · exact carried
  · exact Nat.zero_le _

theorem State.storeFrame_raisesNoOffer (f : Frame) (s : State) : RaisesNoOffer s (s.storeFrame f) :=
  .of_offer (by simp) (by simp) (by simp) (.inl (by simp))

theorem State.judgeClock_raisesNoOffer (f : Frame) (s : State) : RaisesNoOffer s (s.judgeClock f) :=
  .of_offer (by simp) (by simp) (by simp) (.inl (by simp))

theorem State.countCorrupt_raisesNoOffer (s : State) : RaisesNoOffer s s.countCorrupt :=
  .of_line rfl rfl rfl (.inl rfl)

theorem State.reanchor_raisesNoOffer (a : Instant) (s : State) : RaisesNoOffer s (s.reanchor a) :=
  (State.abortRun_raisesNoOffer s).trans (.of_offer rfl rfl rfl (.inl rfl))

theorem State.deliverPeer_raisesNoOffer (f : Frame) (start : Instant) (s : State) :
    RaisesNoOffer s (s.deliverPeer f start) := by
  have stored : ∀ t, RaisesNoOffer s t → RaisesNoOffer s ((t.storeFrame f).judgeClock f) := fun t ht =>
    (ht.trans (State.storeFrame_raisesNoOffer f t)).trans (State.judgeClock_raisesNoOffer f _)
  unfold State.deliverPeer
  dsimp only
  repeat' split
  · exact stored s (.refl s)
  · exact stored _ (State.reanchor_raisesNoOffer _ s)
  · exact (State.countCorrupt_raisesNoOffer s).trans (State.storeFrame_raisesNoOffer f _)
  · exact .refl s

theorem State.heardMark_raisesNoOffer (start : Instant) (s : State) : RaisesNoOffer s (s.heardMark start) := by
  unfold State.heardMark
  repeat' split
  · have fixed : RaisesNoOffer s { s.abortRun with timer := { s.abortRun.timer with fixed := true } } :=
      (State.abortRun_raisesNoOffer s).trans (.of_offer rfl rfl rfl (.inl rfl))
    exact fixed.trans (State.openRound_raisesNoOffer start _)
  · exact State.openRound_raisesNoOffer start s
  · exact State.countCorrupt_raisesNoOffer s
  · exact .refl s

theorem State.deliver_raisesNoOffer (f : Frame) (start : Instant) (grantFirst : Bool) (s : State) :
    RaisesNoOffer s (s.deliver f start grantFirst) := by
  unfold State.deliver State.duplicateHeard
  repeat' split
  · exact State.enterFaulted_raisesNoOffer _ _ s
  · exact .refl s
  · exact State.deliverPeer_raisesNoOffer f start s

theorem State.transmissionEnds_raisesNoOffer (r : Reception) (grantFirst : Bool) (s : State) :
    RaisesNoOffer s (s.transmissionEnds r grantFirst) := by
  unfold State.transmissionEnds State.hear
  dsimp only
  repeat' split
  · exact State.heardMark_raisesNoOffer _ s
  · exact .refl s
  · exact State.countCorrupt_raisesNoOffer s
  · exact State.deliver_raisesNoOffer _ _ grantFirst s
  · exact State.countCorrupt_raisesNoOffer s
  · exact .refl s

/-! ### Own frames (R12, R37, R39, R40, R120) -/

theorem State.leaveNotSent_ratingBound (f : Frame) {s : State} (hs : RatingBound s) :
    RatingBound (s.leaveNotSent f) := by
  unfold State.leaveNotSent
  split
  · exact State.offlineWith_ratingBound _ _ _ s
  · exact hs

theorem State.withdrawalSent_raisesNoOffer (f : Frame) (s : State) : RaisesNoOffer s (s.withdrawalSent f) := by
  unfold State.withdrawalSent
  split
  · exact .of_offer (by simp) (by simp) (by simp) (.inl (by simp))
  · exact .refl s

/-- A SENT frame leaves its offer to the next view (R120). -/
theorem State.outcomeSent_ratingBound {f : Frame} {s : State} (hf : s.line.transmitter.carried = some f)
    (hs : RatingBound s) : RatingBound (s.outcomeSent f) := by
  unfold State.outcomeSent
  dsimp only
  split
  · exact State.offlineWith_ratingBound _ _ _ _
  · refine (State.withdrawalSent_raisesNoOffer f _).bound ?_
    rw [ratingBound_iff] at hs ⊢
    obtain ⟨hpower, -, hcarried, hview⟩ := hs
    refine ⟨hpower, fun o ho => ?_, fun g hg => ?_, hview⟩
    · cases ho
      exact hcarried f hf
    · simp [Transmitter.carried] at hg

theorem State.outcomeCut_ratingBound (f : Frame) (grantFirst : Bool) {s : State} (hs : RatingBound s) :
    RatingBound (s.outcomeCut f grantFirst) := by
  have stopped : ∀ k, RatingBound { s with line := { s.line.stopped s.now with readbackFailures := k } } := fun k =>
    hs.of_line rfl rfl rfl (.inr (by simp [Transmitter.carried]))
  unfold State.outcomeCut
  dsimp only
  split
  · exact (State.enterFaulted_raisesNoOffer _ _ _).bound (stopped _)
  · exact State.leaveNotSent_ratingBound f (stopped _)

/-! ### The post link (R23, R36, R38, R42, R100, R101) -/

/-- START finds no configuration, so the offers held are 0 and within any rating (R21, R23). -/
theorem State.takeStart_raisesNoOffer (straps : Straps) (fields : List Byte) {s : State} (hs : StationWf s)
    (hoff : s.control.state = .offline) : RaisesNoOffer s (s.takeStart straps fields) := by
  obtain ⟨-, -, hnone, -⟩ := hs.1 hoff
  have rating : s.rating = 0 := by unfold State.rating; rw [hnone]
  rw [State.takeStart_frame]
  exact ⟨rating ▸ Nat.zero_le _, .inl rfl, .inl rfl, .inl rfl, rfl, Nat.le_refl _⟩

theorem State.takeProfile_raisesNoOffer (fields : List Byte) (s : State) : RaisesNoOffer s (s.takeProfile fields) := by
  unfold State.takeProfile
  split
  · have stored : RaisesNoOffer s
        { s with readiness := { s.readiness with profile := some (profileOf fields) } } :=
      .of_offer rfl rfl rfl (.inl rfl)
    exact (((stored.trans (State.setCauses_raisesNoOffer _ _)).trans (State.computeOffer_raisesNoOffer _)).trans
      (State.floorTest_raisesNoOffer _)).trans (State.complete_raisesNoOffer _ _ _ _)
  · exact State.complete_raisesNoOffer _ _ _ s

theorem State.takeReading_raisesNoOffer (fields : List Byte) (s : State) : RaisesNoOffer s (s.takeReading fields) := by
  have stored : RaisesNoOffer s
      { s with readiness := { s.readiness with reading := some (readingOf fields), lapseReported := false } } :=
    .of_offer rfl rfl rfl (.inl rfl)
  exact ((((stored.trans (State.setCauses_raisesNoOffer _ _)).trans (State.deviationTest_raisesNoOffer _ _)).trans
    (State.computeOffer_raisesNoOffer _)).trans (State.floorTest_raisesNoOffer _)).trans
    (State.complete_raisesNoOffer _ _ _ _)

theorem State.handle_keepsRating {k : RequestKind} (straps : Straps) (fields : List Byte) {s : State}
    (hs : StationWf s) (hk : kindAllowed k s.control.state = true) (hw : RatingBound s) :
    RatingBound (s.handle k straps fields) := by
  cases k with
  | start => exact (State.takeStart_raisesNoOffer straps fields hs (of_decide_eq_true hk)).bound hw
  | profile => exact (State.takeProfile_raisesNoOffer fields s).bound hw
  | reading => exact (State.takeReading_raisesNoOffer fields s).bound hw
  | avail =>
    have moved := fun c => State.setCauses_raisesNoOffer c s
    unfold State.handle
    dsimp only
    split
    · exact ((moved _).trans (State.complete_raisesNoOffer _ _ _ _)).bound hw
    · exact (((moved _).trans (State.zeroExport_raisesNoOffer _)).trans (.of_offer rfl rfl rfl (.inl rfl))).bound hw
  | takeNotice =>
    show RatingBound s.takeHead
    unfold State.takeHead
    split <;> exact hw
  | restart => exact State.offlineWith_ratingBound _ _ _ s
  | peer | status | leave => exact hw

theorem State.transact_keepsRating (straps : Straps) (selector : Byte) (bytes : List Byte) :
    Keeps RatingBound (State.transact straps selector bytes) := by
  intro s hs hw
  unfold State.transact
  split
  · unfold State.writeTransaction State.takeWrite
    dsimp only
    repeat' split
    · exact hw
    · exact hw
    · rename_i hpass
      obtain ⟨-, -, -, hallowed, -⟩ := checkRequest_pass hpass
      exact State.handle_keepsRating straps _ (s := State.openRequest _ _ _ (State.sendsOpen [] _ s)) hs hallowed hw
    · exact hw
    · exact hw
  · exact RaisesNoOffer.bound (.of_offer (by simp) (by simp) (by simp) (.inl (by simp))) hw
  · exact RaisesNoOffer.bound (.of_offer (by simp) (by simp) (by simp) (.inl (by simp))) hw
  · exact hw

/-! ### Inputs and the reading lapse (R33, R34, R110) -/

theorem State.plugFell_raisesNoOffer (s : State) : RaisesNoOffer s s.plugFell := by
  unfold State.plugFell
  split
  · have discarded : RaisesNoOffer s { s with readiness := s.readiness.discarded } := .of_offer rfl rfl rfl (.inl rfl)
    exact ((discarded.trans (State.setCauses_raisesNoOffer _ _)).trans (State.computeOffer_raisesNoOffer _)).trans
      (State.zeroExport_raisesNoOffer _)
  · exact .refl s

theorem State.plugRose_raisesNoOffer (s : State) : RaisesNoOffer s s.plugRose := by
  unfold State.plugRose
  split
  · exact (State.setCauses_raisesNoOffer _ s).trans (State.zeroExport_raisesNoOffer _)
  · exact .refl s

theorem State.stopPressed_raisesNoOffer (s : State) : RaisesNoOffer s s.stopPressed := by
  unfold State.stopPressed
  repeat' split
  · exact ((State.setCauses_raisesNoOffer _ s).trans (State.zeroExport_raisesNoOffer _)).trans
      (State.notice_raisesNoOffer _ _)
  · exact State.notice_raisesNoOffer _ s
  · exact .refl s

theorem State.stopFreed_raisesNoOffer (s : State) : RaisesNoOffer s s.stopFreed := by
  unfold State.stopFreed
  repeat' split
  · exact (State.setCauses_raisesNoOffer _ s).trans (State.notice_raisesNoOffer _ _)
  · exact State.notice_raisesNoOffer _ s
  · exact .refl s

theorem State.readingLapses_raisesNoOffer (s : State) : RaisesNoOffer s s.readingLapses := by
  have marked : RaisesNoOffer s { s with readiness := { s.readiness with lapseReported := true } } :=
    .of_offer rfl rfl rfl (.inl rfl)
  have reported := fun n => marked.trans (State.notice_raisesNoOffer n _)
  unfold State.readingLapses
  repeat' split
  · exact ((reported _).trans (State.setCauses_raisesNoOffer _ _)).trans (State.zeroExport_raisesNoOffer _)
  · exact reported _
  · exact .refl s
  · exact .refl s

theorem State.lineWentIdle_raisesNoOffer (s : State) : RaisesNoOffer s s.lineWentIdle := by
  unfold State.lineWentIdle
  split <;> exact .of_line rfl rfl rfl (.inl rfl)

theorem State.periodStarts_raisesNoOffer (s : State) : RaisesNoOffer s s.periodStarts := by
  obtain h | ⟨p, h⟩ := s.periodStarts_eq <;> rw [h] <;> exact .of_line rfl rfl rfl (.inl rfl)

/-! ### Every step -/

/-- What each meaning keeps, meaning by meaning. -/
theorem ratingBound_keptByEvents : KeptByEvents RatingBound where
  advance dt := .of_raisesNoOffer fun s => .of_offer (by simp) (by simp) (by simp) (.inl (by simp))
  settle _ hs := hs
  queue _ _ _ hs := hs
  inputs _ _ _ hs := hs
  powerOn _ _ _ _ := RatingBound.of_reset ⟨Nat.le_refl _, .inl rfl, .inl rfl, .inl rfl, rfl, Nat.le_refl _⟩
  transact := State.transact_keepsRating
  transmissionEnds r grantFirst := .of_raisesNoOffer (State.transmissionEnds_raisesNoOffer r grantFirst)
  lineWentIdle := .of_raisesNoOffer State.lineWentIdle_raisesNoOffer
  timerExpires idle := .of_raisesNoOffer (State.timerExpires_raisesNoOffer idle)
  slotOpens := State.slotOpens_keepsRating
  allocationPoint := State.allocationPoint_keepsRating
  runCompletes := State.runCompletes_keepsRating
  frameStarts s _ hs opening f h :=
    hs.of_line rfl rfl rfl (.inl (by rw [h]; rfl))
  frameBlocked s _ hs opening f _ :=
    State.leaveNotSent_ratingBound f (hs.of_line rfl rfl rfl (.inr rfl))
  frameSent s _ hs start f h := State.outcomeSent_ratingBound (by rw [h]; rfl) hs
  frameCut s _ hs start f grantFirst _ := State.outcomeCut_ratingBound f grantFirst hs
  markStopped s _ hs start _ :=
    hs.of_line rfl rfl rfl (.inr (by simp [Transmitter.carried]))
  plugFell := .of_raisesNoOffer State.plugFell_raisesNoOffer
  plugRose := .of_raisesNoOffer State.plugRose_raisesNoOffer
  stopPressed := .of_raisesNoOffer State.stopPressed_raisesNoOffer
  stopFreed := .of_raisesNoOffer State.stopFreed_raisesNoOffer
  readingLapses := .of_raisesNoOffer State.readingLapses_raisesNoOffer
  periodStarts := .of_raisesNoOffer State.periodStarts_raisesNoOffer

/-- Thousandths of a rating, of a figure within it, are at most 1000 (R145). -/
theorem stageDuty_le {s : State} {applied : Nat} (h : applied ≤ s.rating) :
    stageDuty s.control.configuration applied ≤ 1000 := by
  unfold State.rating at h
  unfold stageDuty
  cases hc : s.control.configuration with
  | none => exact Nat.zero_le _
  | some c =>
    rw [hc] at h
    exact Nat.div_le_of_le_mul (by rw [Nat.mul_comm c.stageRating]; exact Nat.mul_le_mul_left 1000 h)

/-- Settles O60: every event keeps the bound; what is applied is within the grant, and the grant within the rating. -/
theorem stepsKeepTheRatingBound : Obligations.StepsKeepTheRatingBound := by
  unfold Obligations.StepsKeepTheRatingBound
  refine ⟨fun s t hs hw h => ratingBound_keptByEvents.step h hs hw, fun s _ hexport hbound => ?_⟩
  obtain ⟨-, happlied, -, hduty, -⟩ := hexport
  obtain ⟨-, -, -, -, -, hgrant⟩ := hbound
  rw [hduty]
  exact stageDuty_le (Nat.le_trans happlied hgrant)

end Sys2Proof.Machine
end

section
/-! PROFILE, READING and the reading lapse (R100, R101, R103, R108, R110, R111, R143, R148, R162, R163; O12, O13,
O52). -/

namespace Sys2Proof.Machine

/-! ### The floor test, and the answer after it (R108, R157) -/

theorem State.floorReached_iff {s : State} :
    s.floorReached = true ↔ s.readiness.offerEnergy = 0 ∧ 0 < s.setpoint.applied := decide_eq_true_iff

/-- The floor test moves floor hold, setpoint and queue alone. -/
theorem State.floorTest_frame (s : State) :
    s.floorTest =
      { s with
        readiness := s.floorTest.readiness, setpoint := s.floorTest.setpoint, notices := s.floorTest.notices } := by
  rw [State.floorTest_eq]
  split
  · rw [State.notice_eq]
    rfl
  · rfl

/-- It computes no figure anew and leaves the deviation flag. -/
theorem State.floorTest_figures (s : State) :
    s.floorTest.readiness.floor = s.readiness.floor ∧
    s.floorTest.readiness.offerEnergy = s.readiness.offerEnergy ∧
    s.floorTest.readiness.offerPower = s.readiness.offerPower ∧
    s.floorTest.readiness.deviationFlag = s.readiness.deviationFlag := by
  rw [State.floorTest_eq]
  split <;> simp

/-- What a floor test of u leaves, where u is m but for figures, setpoint and the notices made before the test. -/
theorem State.floorTest_tested {m u t : State} {before : List Notice}
    (hc : u.control.configuration = m.control.configuration) (ht : u.timer = m.timer)
    (hn : u.notices = folded m.enabled m.timer.roundCount before m.notices)
    (readiness : t.readiness = u.floorTest.readiness) (setpoint : t.setpoint = u.floorTest.setpoint)
    (notices : t.notices = u.floorTest.notices) : FloorTested m t u.readiness u.setpoint before := by
  have enabled : u.enabled = m.enabled := State.enabled_of_configuration hc
  unfold FloorTested
  rw [readiness, setpoint, notices, State.floorTest_eq]
  by_cases h : u.readiness.offerEnergy = 0 ∧ 0 < u.setpoint.applied
  · rw [if_pos h, if_pos (State.floorReached_iff.mpr h), folded_append, ← hn, ← hc, ← enabled, ← ht, State.notice_eq,
      State.notice_notices]
    exact ⟨rfl, rfl, rfl⟩
  · rw [if_neg h, if_neg (mt State.floorReached_iff.mp h)]
    exact ⟨rfl, rfl, hn⟩

/-- A completion at a working part raises IRQ with DONE (R157, R160). -/
theorem State.settle_complete_link {s : State} (hr : s.running = true) (kind : Byte) (r : ResultCode)
    (fields : List Byte) :
    (s.complete kind r fields).settle.link = { s.link.answered kind r fields with irq := true } := by
  rw [State.settle_running ((State.running_of_inputs (by simp)).trans hr)]
  rfl

/-- A request answered after its floor test: u is the state m of the write but for what the request has moved. -/
theorem State.answered_after_floorTest {m u : State} {before : List Notice} (kind : Byte) (fields : List Byte)
    (hr : m.running = true)
    (hu : u =
      { m with
        control := u.control, readiness := u.readiness, setpoint := u.setpoint, notices := u.notices
        link := u.link })
    (hl : u.link.answered kind .ok fields = m.link.answered kind .ok fields)
    (hc : u.control.configuration = m.control.configuration)
    (hn : u.notices = folded m.enabled m.timer.roundCount before m.notices) :
    let t := (u.floorTest.complete kind .ok fields).settle
    t.control = u.control ∧ FloorTested m t u.readiness u.setpoint before ∧
    t.link = { m.link.answered kind .ok fields with irq := true } ∧
    t =
      { m with
        control := t.control, readiness := t.readiness, setpoint := t.setpoint, notices := t.notices
        link := t.link } := by
  have inputs : u.floorTest.inputs = m.inputs := by rw [State.floorTest_frame, hu]
  refine ⟨?control, ?tested, ?link, ?frame⟩
  case control => simp
  case tested => exact State.floorTest_tested hc (by rw [hu]) hn rfl rfl rfl
  case link =>
    rw [State.settle_complete_link ((State.running_of_inputs inputs).trans hr), ← hl, State.floorTest_frame]
  case frame =>
    rw [State.floorTest_frame, hu]
    rfl

/-! ### PROFILE (R100, R162) -/

/-- A two-byte field, the most significant byte first. -/
theorem fieldWord_eq (fs : List Byte) (i : Nat) : fieldWord fs i = 256 * fieldByte fs i + fieldByte fs (i + 1) := by
  unfold fieldWord
  rw [Nat.mul_comm]

/-- The profile's figures after it is stored: computed with NO_PROFILE gone (R103). -/
def State.profiled (fields : List Byte) (m : State) : ReadinessUnit :=
  ReadinessUnit.computed { m.readiness with profile := some (profileOf fields) }
    { m.control.causes with noProfile := false } m.control.configuration

theorem State.takeProfile_plugged {m : State} (len : Byte) (fields : List Byte) (hr : m.running = true)
    (hplug : m.inputs.plug = true) :
    ∃ t, ((m.openRequest (kindCode .profile) len fields).takeProfile fields).settle = t ∧
      t.control = (m.setCauses { m.control.causes with noProfile := false }).control ∧
      FloorTested m t (m.profiled fields) m.setpoint [] ∧
      t.link =
        { m.link.answered (kindCode .profile) .ok
            (be16 ((m.profiled fields).floor.getD 0) ++ be16 (m.profiled fields).offerEnergy) with
          irq := true } ∧
      t =
        { m with
          control := t.control, readiness := t.readiness, setpoint := t.setpoint, notices := t.notices
          link := t.link } := by
  let causes := { m.control.causes with noProfile := false }
  let u : State :=
    { m.openRequest (kindCode .profile) len fields with
      control := (m.setCauses causes).control, readiness := m.profiled fields }
  have taken : (m.openRequest (kindCode .profile) len fields).takeProfile fields =
      u.floorTest.complete (kindCode .profile) .ok
        (be16 ((m.profiled fields).floor.getD 0) ++ be16 (m.profiled fields).offerEnergy) := by
    obtain ⟨floor, energy, -, -⟩ := State.floorTest_figures u
    rw [← show u.readiness = m.profiled fields from rfl, ← floor, ← energy]
    unfold State.takeProfile
    rw [if_pos (show (m.openRequest _ len fields).inputs.plug = true from hplug)]
    dsimp only
    rw [State.setCauses_computeOffer, State.setCauses_control_eq]
    simp only [u, State.setCauses_control_eq]
    rfl
  rw [taken]
  exact ⟨_, rfl, State.answered_after_floorTest _ _ hr rfl rfl (by simp [u]) rfl⟩

/-- Settles O12: with a bus by the floor test of the figures computed, without one by the answer alone. -/
theorem profileIsTakenWithABus : Obligations.ProfileIsTakenWithABus := by
  unfold Obligations.ProfileIsTakenWithABus
  intro dt len fs s ⟨hr, hb⟩ hcheck m b w p causes R
  have mc : m.control = s.control := by simp [m, State.written]
  have mi : m.inputs = s.inputs := by simp [m, State.written]
  have hp : profileOf fs = p := by
    unfold profileOf
    simp only [fieldWord_eq]
    rfl
  have executed : exec (.profile dt len fs) s =
      .next ((m.openRequest (kindCode .profile) len fs).takeProfile fs).settle :=
    execWriteRequest_pass (straps := noStraps) hr hb hcheck
  rw [executed]
  refine ⟨fun hplug => ?plugged, fun hplug => ?unplugged⟩
  case plugged =>
    have figures : m.profiled fs = R := by
      unfold State.profiled
      rw [hp, mc]
    obtain ⟨t, ht, taken⟩ :=
      State.takeProfile_plugged len fs ((State.running_of_inputs mi).trans hr) (by rw [mi]; exact hplug)
    rw [figures, mc] at taken
    exact ⟨t, congrArg _ ht, taken⟩
  case unplugged =>
    have hlow : ¬(m.openRequest (kindCode .profile) len fs).inputs.plug = true := by
      show ¬m.inputs.plug = true
      rw [mi, hplug]
      exact nofun
    unfold State.takeProfile
    rw [if_neg hlow]
    rfl

/-! ### READING (R101, R163) -/

/-- The count and the flag after a reading's deviation test (R111). -/
def State.deviated (fields : List Byte) (m : State) : Nat × Bool :=
  deviationStep m.readiness.deviationCount m.readiness.deviationFlag
    (deviates (readingOf fields).measured m.setpoint.applied)

/-- The figures after a reading is stored and tested: computed with NO_READING and LAPSE gone (R103). -/
def State.readingHeld (fields : List Byte) (m : State) : ReadinessUnit :=
  ReadinessUnit.computed
    { m.readiness with
      reading := some (readingOf fields), lapseReported := false
      deviationCount := (m.deviated fields).1, deviationFlag := (m.deviated fields).2 }
    { m.control.causes with noReading := false, lapse := false } m.control.configuration

theorem State.takeReading_leaves {m : State} (len : Byte) (fields : List Byte) (hr : m.running = true) :
    let R := m.readingHeld fields
    ∃ t, ((m.openRequest (kindCode .reading) len fields).takeReading fields).settle = t ∧
      t.control = (m.setCauses { m.control.causes with noReading := false, lapse := false }).control ∧
      FloorTested m t R { m.setpoint with announced := announcedFor R m.setpoint.applied }
        (if (m.deviated fields).2 && !m.readiness.deviationFlag then
          [numbered .stageDeviation (readingOf fields).measured] else []) ∧
      t.link =
        { m.link.answered (kindCode .reading) .ok
            ([byte R.offerPower] ++ be16 R.offerEnergy ++
              [bitsByte [t.readiness.floorHold, (m.deviated fields).2,
                decide (R.offerEnergy = 0 ∧ 0 < m.setpoint.applied)]]) with
          irq := true } ∧
      t =
        { m with
          control := t.control, readiness := t.readiness, setpoint := t.setpoint, notices := t.notices
          link := t.link } := by
  intro R
  let causes := { m.control.causes with noReading := false, lapse := false }
  let u : State :=
    { m.openRequest (kindCode .reading) len fields with
      control := (m.setCauses causes).control, readiness := R
      setpoint := { m.setpoint with announced := announcedFor R m.setpoint.applied }
      notices :=
        folded m.enabled m.timer.roundCount
          (if (m.deviated fields).2 && !m.readiness.deviationFlag then
            [numbered .stageDeviation (readingOf fields).measured] else []) m.notices }
  have taken : (m.openRequest (kindCode .reading) len fields).takeReading fields =
      u.floorTest.complete (kindCode .reading) .ok (readingFields u.floorTest u.floorReached) := by
    unfold State.takeReading
    dsimp only
    rw [State.deviationTest_computeOffer, State.setCauses_control_eq]
    simp only [u, State.setCauses_control_eq]
    rfl
  obtain ⟨-, energy, power, flag⟩ := State.floorTest_figures u
  obtain ⟨control, tested, link, frame⟩ :=
    State.answered_after_floorTest (u := u) (kindCode .reading) (readingFields u.floorTest u.floorReached) hr rfl rfl
      (by simp [u]) rfl
  refine ⟨_, congrArg State.settle taken, control, tested, link.trans ?_, frame⟩
  unfold readingFields
  rw [energy, power, flag]
  rfl

/-- Settles O13: the figures held after the deviation test, then the floor test, then the answer. -/
theorem readingIsTaken : Obligations.ReadingIsTaken := by
  unfold Obligations.ReadingIsTaken
  intro dt len fs s ⟨hr, hb⟩ hcheck m r causes d R
  have mc : m.control = s.control := by simp [m, State.written]
  have mi : m.inputs = s.inputs := by simp [m, State.written]
  have ms : m.setpoint = s.setpoint := by simp [m, State.written]
  have mflag : m.readiness.deviationFlag = s.readiness.deviationFlag := by simp [m, State.written]
  have mcount : m.readiness.deviationCount = s.readiness.deviationCount := by simp [m, State.written]
  have executed : exec (.reading dt len fs) s =
      .next ((m.openRequest (kindCode .reading) len fs).takeReading fs).settle :=
    execWriteRequest_pass (straps := noStraps) hr hb hcheck
  have hreading : readingOf fs = r := by
    unfold readingOf
    rw [fieldWord_eq]
    rfl
  have hd : m.deviated fs = d := by
    unfold State.deviated
    rw [hreading, mflag, mcount, ms]
  have figures : m.readingHeld fs = R := by
    unfold State.readingHeld
    rw [hreading, hd, mc]
  obtain ⟨t, ht, control, tested, link, frame⟩ :=
    State.takeReading_leaves len fs ((State.running_of_inputs mi).trans hr)
  rw [mc] at control
  rw [figures, hd, hreading, mflag] at tested
  rw [figures, hd, show m.setpoint.applied = s.setpoint.applied by rw [ms]] at link
  rw [executed]
  exact ⟨t, congrArg _ ht, control, tested, link, frame⟩

/-! ### The reading lapse (R110, R143) -/

/-- A zeroing after a change of causes: the announced figure does not rest on the figures computed. -/
theorem State.setCauses_zeroExport (c : HoldCauses) (s : State) :
    (s.setCauses c).zeroExport =
      { s.setCauses c with setpoint := s.setpoint.at_ 0 s.control.configuration s.readiness } := by
  unfold State.setCauses
  split <;> rfl

/-- The report of a reading that has lapsed: its mark and its notice. -/
def State.lapseNoticed (c : Configuration) (m : State) : State :=
  { m with
    readiness := { m.readiness with lapseReported := true }
    notices := folded m.enabled m.timer.roundCount [numbered .readingLapsed c.lapseTime] m.notices }

section
variable {m : State} {r : HeldReading} {c : Configuration} (hreading : m.readiness.reading = some r)
  (hc : m.control.configuration = some c)
include hreading hc

theorem State.readingLapses_due (hdue : m.readiness.lapseReported = false ∧ c.lapseTime * 1000000 < r.age) :
    m.readingLapses =
      if m.control.state.watches then
        ((m.lapseNoticed c).setCauses { m.control.causes with lapse := true }).zeroExport
      else m.lapseNoticed c := by
  have noticed : State.notice (numbered .readingLapsed c.lapseTime)
      { m with readiness := { m.readiness with lapseReported := true } } = m.lapseNoticed c := by
    rw [State.notice_eq, State.notice_notices]
    rfl
  unfold State.readingLapses
  rw [hreading, hc]
  dsimp only
  rw [if_pos (show _ ∧ c.lapseTime * Config.second < r.age from hdue), noticed]

theorem State.readingLapses_early (h : ¬(m.readiness.lapseReported = false ∧ c.lapseTime * 1000000 < r.age)) :
    m.readingLapses = m := by
  unfold State.readingLapses
  rw [hreading, hc]
  exact if_neg h

end

/-- The held reading once time has passed: its age grows up to 65,535 s, its tally by what is applied (R99, R102). -/
theorem State.advance_reading (dt : Nat) {s : State} (hr : s.running = true) {r : HeldReading}
    (h : s.readiness.reading = some r) :
    (s.advance dt).readiness.reading =
      some { r with age := min 65535000000 (r.age + dt), tally := r.tally + s.setpoint.applied * dt } := by
  rw [State.advance_running dt hr]
  simp only [ReadinessUnit.aged, h]
  rfl

/-- Settles O52: the lapse is due or not, and where it is due the state watches causes or does not. -/
theorem readingsLapse : Obligations.ReadingsLapse := by
  unfold Obligations.ReadingsLapse
  intro dt s r c hr hreading hc m due reported lapsed watched
  obtain ⟨-, -, mtimer, mc, -, -, -, ms, -, mn, -⟩ := State.advance_keeps dt s
  have mreading := State.advance_reading dt hr hreading
  have mconf : m.control.configuration = some c := by rw [mc, hc]
  have mreported : m.readiness.lapseReported = s.readiness.lapseReported := by simp [m]
  have menabled : m.enabled = s.enabled := State.enabled_of_configuration (congrArg StationControl.configuration mc)
  have queue : folded m.enabled m.timer.roundCount [numbered .readingLapsed c.lapseTime] m.notices =
      folded s.enabled s.timer.roundCount [numbered .readingLapsed c.lapseTime] s.notices := by
    rw [menabled, mtimer, mn]
  have noticed : m.lapseNoticed c = reported := by
    unfold State.lapseNoticed
    rw [queue]
  have executed : exec (.readingLapse dt) s = .next m.readingLapses.settle := happens_running hr
  have hwatches : m.control.state.watches = true ↔ watched := by
    rw [mc]
    exact StationState.watches_iff _
  rw [executed]
  refine ⟨fun hdue hwatched => ?watching, fun hdue hwatched => ?reportedOnly, fun hdue => ?early⟩
  case watching =>
    rw [State.readingLapses_due mreading mconf (mreported ▸ hdue), if_pos (hwatches.mpr hwatched), noticed,
      State.setCauses_zeroExport, mc, show reported.setpoint = s.setpoint from ms]
    rfl
  case reportedOnly =>
    rw [State.readingLapses_due mreading mconf (mreported ▸ hdue), if_neg (mt hwatches.mp hwatched), noticed]
  case early => rw [State.readingLapses_early mreading mconf (mreported ▸ hdue)]

end Sys2Proof.Machine
end

section
/-! What an abort leaves of a run (R133; O29). -/

namespace Sys2Proof.Machine

/-- With no run in flight an abort does nothing. -/
theorem State.abortRun_idle {s : State} (h : s.grant.runStatus ≠ .inFlight) : s.abortRun = s := by
  unfold State.abortRun
  split
  case h_1 hstatus _ => exact absurd hstatus h
  case h_2 => rfl

/-- The run in flight, of a view, aborts: its status, the round's report and the notice, and nothing else. -/
theorem State.abortRun_inFlight {s : State} {v : RoundView} (hstatus : s.grant.runStatus = .inFlight)
    (hview : s.grant.view = some v) :
    s.abortRun =
      { s with
        grant := { s.grant with runStatus := .aborted }
        timer := { s.timer with outcome := .aborted }
        notices := folded s.enabled s.timer.roundCount [numbered .runAborted v.round] s.notices } := by
  simp only [State.abortRun, hstatus, hview]
  rw [State.notice_eq, State.notice_notices]
  rfl

/-- Settles O29: a run is in flight or none is. -/
theorem abortKeepsTheLastCompletedRun : Obligations.AbortKeepsTheLastCompletedRun := by
  unfold Obligations.AbortKeepsTheLastCompletedRun
  exact fun s => ⟨fun v hstatus hview => State.abortRun_inFlight hstatus hview, State.abortRun_idle⟩

end Sys2Proof.Machine
end

section
/-! Sorting by insertion, as both the chain and the grant list are sorted (R125, R126; O42, O44). -/

namespace Sys2Proof.Machine

/-- Before the first entry it may stand before. -/
def insertBy {α : Type} (le : α → α → Bool) (a : α) : List α → List α
  | [] => [a]
  | x :: xs => if le a x then a :: x :: xs else x :: insertBy le a xs

def sortedBy {α : Type} (le : α → α → Bool) : List α → List α
  | [] => []
  | x :: xs => insertBy le x (sortedBy le xs)

section
variable {α : Type} {le : α → α → Bool}

theorem insertBy_perm (le : α → α → Bool) (a : α) (xs : List α) : (insertBy le a xs).Perm (a :: xs) := by
  induction xs with
  | nil => exact List.Perm.refl _
  | cons x xs ih =>
    unfold insertBy
    split
    · exact List.Perm.refl _
    · exact (ih.cons x).trans (List.Perm.swap a x xs)

theorem sortedBy_perm (le : α → α → Bool) (xs : List α) : (sortedBy le xs).Perm xs := by
  induction xs with
  | nil => exact List.Perm.refl _
  | cons x xs ih => exact (insertBy_perm le x _).trans (ih.cons x)

theorem insertBy_pairwise (total : ∀ a b, le a b = true ∨ le b a = true)
    (trans : ∀ a b c, le a b = true → le b c = true → le a c = true) (a : α) {xs : List α}
    (h : xs.Pairwise fun x y => le x y = true) : (insertBy le a xs).Pairwise fun x y => le x y = true := by
  induction xs with
  | nil => exact List.pairwise_singleton _ _
  | cons x xs ih =>
    obtain ⟨hx, hxs⟩ := List.pairwise_cons.mp h
    unfold insertBy
    split
    case isTrue hle =>
      refine List.pairwise_cons.mpr ⟨fun y hy => ?_, h⟩
      obtain rfl | hy := List.mem_cons.mp hy
      · exact hle
      · exact trans a x y hle (hx y hy)
    case isFalse hle =>
      refine List.pairwise_cons.mpr ⟨fun y hy => ?_, ih hxs⟩
      obtain rfl | hy := List.mem_cons.mp ((insertBy_perm le a xs).mem_iff.mp hy)
      · exact (total y x).resolve_left hle
      · exact hx y hy

theorem sortedBy_pairwise (total : ∀ a b, le a b = true ∨ le b a = true)
    (trans : ∀ a b c, le a b = true → le b c = true → le a c = true) (xs : List α) :
    (sortedBy le xs).Pairwise fun x y => le x y = true := by
  induction xs with
  | nil => exact List.Pairwise.nil
  | cons x xs ih => exact insertBy_pairwise total trans x ih

end

end Sys2Proof.Machine
end

section
/-! The chain of a view: its amounts, its candidates and its order (R120, R121, R124, R125; O42). -/

namespace Sys2Proof.Machine

/-! ### The three amounts (R124) -/

/-- A live count within the census scales the budget down, never up. -/
theorem RoundView.scaledBudget_le {v : RoundView} (h : v.liveCount ≤ v.census) : v.scaledBudget ≤ v.budget := by
  unfold RoundView.scaledBudget
  split
  · exact Nat.zero_le _
  · exact Nat.div_le_of_le_mul (Nat.mul_comm v.census v.budget ▸ Nat.mul_le_mul_left v.budget h)

theorem RoundView.available_le {v : RoundView} (h : v.liveCount ≤ v.census) : v.available ≤ v.budget :=
  Nat.le_trans (Nat.sub_le _ _) (RoundView.scaledBudget_le h)

/-! ### The candidates (R120, R121) -/

theorem RoundView.mem_ownMember {v : RoundView} {c : ChainMember} :
    c ∈ v.ownMember ↔
      ∃ o, v.sent = some o ∧ v.ownState = .member ∧ 0 < v.ownOffer.power ∧ 0 < o.power ∧
        c = ⟨v.ownNumber, o.power, o.energy, v.ownDeparture⟩ := by
  unfold RoundView.ownMember
  cases v.sent with
  | none => simp
  | some o =>
    by_cases h : v.ownState = .member ∧ 0 < v.ownOffer.power ∧ 0 < o.power
    · simp [h]
    · simpa [h] using fun hstate hoffer hsent => absurd ⟨hstate, hoffer, hsent⟩ h

theorem PeerRecord.candidate_iff (r : PeerRecord) :
    r.candidate = true ↔ r.received = true ∧ r.core.state = .member ∧ 0 < r.core.offerPower := by
  simp [PeerRecord.candidate, and_assoc]

theorem RoundView.mem_peerMembers {v : RoundView} {c : ChainMember} :
    c ∈ v.peerMembers ↔
      ∃ r ∈ v.peers, r.received = true ∧ r.core.state = .member ∧ 0 < r.core.offerPower ∧
        c = ⟨r.number, r.core.offerPower, r.core.offerEnergy, r.departure⟩ := by
  simp only [RoundView.peerMembers, List.mem_map, List.mem_filter, PeerRecord.candidate_iff, and_assoc,
    eq_comm (a := c)]

theorem RoundView.mem_candidates {v : RoundView} {c : ChainMember} :
    c ∈ v.candidates ↔
      (∃ o, v.sent = some o ∧ v.ownState = .member ∧ 0 < v.ownOffer.power ∧ 0 < o.power ∧
        c = ⟨v.ownNumber, o.power, o.energy, v.ownDeparture⟩) ∨
      ∃ r ∈ v.peers, r.received = true ∧ r.core.state = .member ∧ 0 < r.core.offerPower ∧
        c = ⟨r.number, r.core.offerPower, r.core.offerEnergy, r.departure⟩ := by
  rw [RoundView.candidates, List.mem_append, RoundView.mem_ownMember, RoundView.mem_peerMembers]

/-! ### Each station once (R121) -/

theorem RoundView.ownMember_number {v : RoundView} {m : ChainMember} (h : m ∈ v.ownMember) :
    m.number = v.ownNumber := by
  obtain ⟨o, -, -, -, -, rfl⟩ := RoundView.mem_ownMember.mp h
  rfl

/-- The own station is a candidate at most once. -/
theorem RoundView.ownMember_numbers_nodup (v : RoundView) : (v.ownMember.map ChainMember.number).Nodup := by
  unfold RoundView.ownMember
  repeat' split
  all_goals simp

/-- The peers among the candidates are some of the view's, in its order. -/
theorem RoundView.peerMembers_numbers_sublist (v : RoundView) :
    (v.peerMembers.map ChainMember.number).Sublist (v.peers.map PeerRecord.number) := by
  rw [RoundView.peerMembers, List.map_map]
  exact List.filter_sublist.map _

theorem RoundView.candidates_numbers_nodup {v : RoundView} (hpeers : (v.peers.map PeerRecord.number).Nodup)
    (hown : ∀ r ∈ v.peers, r.number ≠ v.ownNumber) : (v.candidates.map ChainMember.number).Nodup := by
  rw [RoundView.candidates, List.map_append, List.nodup_append]
  refine ⟨v.ownMember_numbers_nodup, List.Nodup.sublist v.peerMembers_numbers_sublist hpeers,
    fun k hk k' hk' heq => ?_⟩
  obtain ⟨m, hm, hmk⟩ := List.mem_map.mp hk
  obtain ⟨r, hr, hrk⟩ := List.mem_map.mp (v.peerMembers_numbers_sublist.mem hk')
  have hnumber : r.number = v.ownNumber := by rw [hrk, ← heq, ← hmk, RoundView.ownMember_number hm]
  exact hown r hr hnumber

/-! ### The order (R125) -/

theorem departureKey_inj {x y : Option Nat} : departureKey x = departureKey y ↔ x = y := by
  cases x <;> cases y <;> simp [departureKey]

/-- A missing departure is the earliest. -/
theorem departureKey_lt {x y : Option Nat} :
    departureKey y < departureKey x ↔ ∃ d, x = some d ∧ (y = none ∨ ∃ d', y = some d' ∧ d' < d) := by
  cases x <;> cases y <;> simp [departureKey]

theorem ChainMember.before_iff (a b : ChainMember) :
    a.before b = true ↔
      b.energy < a.energy ∨
      (a.energy = b.energy ∧
        (departureKey b.departure < departureKey a.departure ∨
          (departureKey a.departure = departureKey b.departure ∧ a.number ≤ b.number))) := by
  unfold ChainMember.before
  by_cases he : a.energy = b.energy
  · by_cases hd : departureKey a.departure = departureKey b.departure <;> simp [he, hd]
  · simp [he]

theorem ChainMember.before_total (a b : ChainMember) : a.before b = true ∨ b.before a = true := by
  simp only [ChainMember.before_iff]
  omega

theorem ChainMember.before_trans {a b c : ChainMember} (hab : a.before b = true) (hbc : b.before c = true) :
    a.before c = true := by
  simp only [ChainMember.before_iff] at hab hbc ⊢
  omega

/-- Two members that stand before each other are one station's. -/
theorem ChainMember.number_eq_of_before {a b : ChainMember} (hab : a.before b = true) (hba : b.before a = true) :
    a.number = b.number := by
  simp only [ChainMember.before_iff] at hab hba
  omega

/-- The chain is sorted by insertion. -/
theorem sortChain_eq (ms : List ChainMember) : sortChain ms = sortedBy ChainMember.before ms := by
  have insert (m : ChainMember) (xs : List ChainMember) : insertMember m xs = insertBy ChainMember.before m xs := by
    induction xs with
    | nil => rfl
    | cons x xs ih => rw [insertMember, insertBy, ih]
  induction ms with
  | nil => rfl
  | cons m ms ih => rw [sortChain, sortedBy, ih, insert]

theorem RoundView.chain_perm (v : RoundView) : v.chain.Perm v.candidates := by
  rw [RoundView.chain, sortChain_eq]
  exact sortedBy_perm _ _

theorem RoundView.chain_pairwise (v : RoundView) : v.chain.Pairwise fun a b => a.before b = true := by
  rw [RoundView.chain, sortChain_eq]
  exact sortedBy_pairwise ChainMember.before_total (fun _ _ _ => ChainMember.before_trans) _

/-- Settles O42: the amounts and the candidates of a view, its stations each once, the order, the chain. -/
theorem chainOfAView : Obligations.ChainOfAView := by
  unfold Obligations.ChainOfAView
  refine ⟨fun v => ⟨rfl, RoundView.available_le, fun c => RoundView.mem_candidates⟩,
    fun v => RoundView.candidates_numbers_nodup, fun a b => ?order, fun v => ⟨v.chain_perm, v.chain_pairwise⟩⟩
  case order => rw [ChainMember.before_iff, departureKey_lt, departureKey_inj]

end Sys2Proof.Machine
end

section
/-! The two passes over a chain and their bound (R123, R126; O43). -/

namespace Sys2Proof.Machine

/-! ### Pass 2 over what pass 1 gave (R126) -/

section
variable (first : ChainMember → Nat) (remainder : Nat) (chain : List ChainMember)

/-- Pass 2 keeps the members and their order. -/
theorem passTwo_members : (passTwo remainder (chain.map fun m => (m, first m))).map Prod.fst = chain := by
  induction chain generalizing remainder with
  | nil => rfl
  | cons m ms ih => rw [List.map_cons, passTwo, List.map_cons, ih]

/-- Pass 2 adds no more than the remainder to what pass 1 gave. -/
theorem passTwo_sum_le :
    ((passTwo remainder (chain.map fun m => (m, first m))).map Prod.snd).sum ≤ (chain.map first).sum + remainder := by
  induction chain generalizing remainder with
  | nil => exact Nat.zero_le _
  | cons m ms ih =>
    have rest := ih (remainder - min (m.power - first m) remainder)
    simp only [List.map_cons, passTwo, List.sum_cons]
    omega

/-- Each member gets what pass 1 gave it and the smaller of what it lacks and what its predecessors left. -/
theorem passTwo_getElem? {i : Nat} {m : ChainMember} {g : Nat}
    (h : (passTwo remainder (chain.map fun m => (m, first m)))[i]? = some (m, g)) :
    g = first m + min (m.power - first m)
      (remainder -
        (((passTwo remainder (chain.map fun m => (m, first m))).take i).map fun p => p.2 - first p.1).sum) := by
  induction chain generalizing remainder i with
  | nil => cases h
  | cons x xs ih =>
    rw [List.map_cons, passTwo] at h ⊢
    cases i with
    | zero =>
      obtain ⟨rfl, rfl⟩ := Prod.mk.inj (Option.some.inj h)
      rfl
    | succ i =>
      have later := ih _ h
      simpa only [List.take_succ_cons, List.map_cons, List.sum_cons, Nat.add_sub_cancel_left, Nat.sub_sub] using later

end

/-! ### Both passes -/

/-- What pass 1 gives a member of a chain of n with available budget a. -/
def firstGrant (a n : Nat) (m : ChainMember) : Nat := min m.power (a / n)

/-- What pass 1 leaves of the available budget. -/
def passOneRemainder (a : Nat) (chain : List ChainMember) : Nat := a - (chain.map (firstGrant a chain.length)).sum

/-- Pass 2 over the chain with what pass 1 gave and left. -/
theorem twoPasses_eq (a : Nat) (chain : List ChainMember) :
    twoPasses a chain =
      passTwo (passOneRemainder a chain) (chain.map fun m => (m, firstGrant a chain.length m)) := by
  cases chain with
  | nil => rfl
  | cons m ms =>
    rw [twoPasses, grantSum, passOne, List.map_map]
    rfl

theorem firstGrant_sum_le_mul (a n : Nat) (chain : List ChainMember) :
    (chain.map (firstGrant a n)).sum ≤ chain.length * (a / n) := by
  induction chain with
  | nil => exact Nat.zero_le _
  | cons m ms ih =>
    have hm : firstGrant a n m ≤ a / n := Nat.min_le_right _ _
    rw [List.map_cons, List.sum_cons, List.length_cons, Nat.succ_mul]
    omega

/-- Equal shares never give more than the available budget. -/
theorem firstGrant_sum_le (a : Nat) (chain : List ChainMember) :
    (chain.map (firstGrant a chain.length)).sum ≤ a :=
  Nat.le_trans (firstGrant_sum_le_mul a chain.length chain) (Nat.mul_div_le a chain.length)

/-- The grants of a chain never add up to more than its available budget (R123). -/
theorem twoPasses_sum_le (a : Nat) (chain : List ChainMember) : ((twoPasses a chain).map Prod.snd).sum ≤ a := by
  have given := firstGrant_sum_le a chain
  have sum := passTwo_sum_le (firstGrant a chain.length) (passOneRemainder a chain) chain
  rw [twoPasses_eq]
  unfold passOneRemainder at sum ⊢
  omega

/-- Settles O43: the members, the bound on the sum and on each grant, each grant. -/
theorem grantsOfTheTwoPasses : Obligations.GrantsOfTheTwoPasses := by
  unfold Obligations.GrantsOfTheTwoPasses
  refine ⟨fun v => rfl, ?_⟩
  intro a chain gs first remainder
  refine ⟨?members, twoPasses_sum_le a chain, fun p hp => (mem_twoPasses hp).2, fun i m g h => ?grant⟩
  case members =>
    rw [show gs = _ from twoPasses_eq a chain]
    exact passTwo_members _ _ chain
  case grant =>
    rw [show gs = _ from twoPasses_eq a chain] at h ⊢
    exact passTwo_getElem? first remainder chain h

end Sys2Proof.Machine
end

section
/-! The grant list and its digest rest on the candidates' figures and the available budget alone (R125, R126, R130;
O44). -/

namespace Sys2Proof.Machine

/-! ### The grant list (R126) -/

/-- By station number. -/
def pairBefore (p q : Nat × Nat) : Bool := decide (p.1 ≤ q.1)

theorem pairBefore_iff {p q : Nat × Nat} : pairBefore p q = true ↔ p.1 ≤ q.1 := decide_eq_true_iff

/-- The grant list is sorted by insertion. -/
theorem sortPairs_eq (ps : List (Nat × Nat)) : sortPairs ps = sortedBy pairBefore ps := by
  have insert (p : Nat × Nat) (xs : List (Nat × Nat)) : insertPair p xs = insertBy pairBefore p xs := by
    induction xs with
    | nil => rfl
    | cons x xs ih => simp only [insertPair, insertBy, pairBefore_iff, ih]
  induction ps with
  | nil => rfl
  | cons p ps ih => rw [sortPairs, sortedBy, ih, insert]

theorem RoundView.grantList_perm (v : RoundView) :
    v.grantList.Perm (v.grants.map fun g => (g.1.number, g.2)) := by
  rw [RoundView.grantList, sortPairs_eq]
  exact sortedBy_perm _ _

theorem RoundView.grantList_pairwise (v : RoundView) : v.grantList.Pairwise fun p q => p.1 ≤ q.1 := by
  rw [RoundView.grantList, sortPairs_eq]
  refine (sortedBy_pairwise (le := pairBefore) (fun p q => ?total) (fun p q r hpq hqr => ?trans) _).imp
    pairBefore_iff.mp
  case total => exact (Nat.le_total p.1 q.1).imp pairBefore_iff.mpr pairBefore_iff.mpr
  case trans => exact pairBefore_iff.mpr (Nat.le_trans (pairBefore_iff.mp hpq) (pairBefore_iff.mp hqr))

/-! ### Equal figures (R130) -/

/-- Where no two members have one number, the number tells the member. -/
theorem ChainMember.eq_of_number_eq {ms : List ChainMember} (hms : (ms.map ChainMember.number).Nodup)
    {a b : ChainMember} (ha : a ∈ ms) (hb : b ∈ ms) (h : a.number = b.number) : a = b := by
  induction ms with
  | nil => cases ha
  | cons m ms ih =>
    obtain ⟨hm, hrest⟩ := List.nodup_cons.mp (List.map_cons ▸ hms)
    obtain rfl | ha' := List.mem_cons.mp ha
    · obtain rfl | hb' := List.mem_cons.mp hb
      · rfl
      · exact absurd (h ▸ List.mem_map_of_mem hb') hm
    · obtain rfl | hb' := List.mem_cons.mp hb
      · exact absurd (h ▸ List.mem_map_of_mem ha') hm
      · exact ih hrest ha' hb'

/-- The order of the chain leaves no choice: two lists of the same members form one chain. -/
theorem RoundView.chain_eq_of_perm {v w : RoundView} (hnodup : (v.candidates.map ChainMember.number).Nodup)
    (hperm : v.candidates.Perm w.candidates) : v.chain = w.chain := by
  refine List.Perm.eq_of_pairwise (fun a b ha hb hab hba => ?_) v.chain_pairwise w.chain_pairwise
    ((v.chain_perm.trans hperm).trans w.chain_perm.symm)
  have ha' : a ∈ v.candidates := v.chain_perm.mem_iff.mp ha
  have hb' : b ∈ v.candidates := hperm.mem_iff.mpr (w.chain_perm.mem_iff.mp hb)
  exact ChainMember.eq_of_number_eq hnodup ha' hb' (ChainMember.number_eq_of_before hab hba)

theorem RoundView.grantList_eq_of_perm {v w : RoundView} (hnodup : (v.candidates.map ChainMember.number).Nodup)
    (hperm : v.candidates.Perm w.candidates) (ha : v.available = w.available) : v.grantList = w.grantList := by
  rw [RoundView.grantList, RoundView.grantList, RoundView.grants, RoundView.grants,
    RoundView.chain_eq_of_perm hnodup hperm, ha]

theorem RoundView.grantDigest_of_grantList {v w : RoundView} (h : v.grantList = w.grantList) :
    v.grantDigest = w.grantDigest := by
  rw [RoundView.grantDigest, RoundView.grantDigest, h]

/-- With no candidate the digest is that of an empty list. -/
theorem RoundView.grantDigest_of_no_candidates {v : RoundView} (h : v.candidates = []) : v.grantDigest = 0 := by
  rw [RoundView.grantDigest, RoundView.grantList, RoundView.grants, RoundView.chain, h]
  rfl

/-- Settles O44: the grant list and digest of one view, then of two with the same figures. -/
theorem sameFiguresSameDigest : Obligations.SameFiguresSameDigest := by
  unfold Obligations.SameFiguresSameDigest
  refine ⟨fun v => ⟨v.grantList_perm, v.grantList_pairwise, rfl, RoundView.grantDigest_of_no_candidates⟩,
    fun v w hnodup hperm ha => ?_⟩
  have hlist : v.grantList = w.grantList := RoundView.grantList_eq_of_perm hnodup hperm ha
  exact ⟨hlist, RoundView.grantDigest_of_grantList hlist⟩

end Sys2Proof.Machine
end

section
/-! The post link consistent after every step (R154, R155, R157; O57). -/

namespace Sys2Proof.Machine

/-! ### A link with no request in flight, and with one -/

/-- Nothing in Station Control waits for the outcome of a request: no START, no LEAVE, no AVAIL(withdrawn) (R157). -/
def State.AwaitsNothing (s : State) : Prop :=
  s.control.state ≠ .joining ∧ s.control.state ≠ .leaving ∧ s.control.withdrawalPending = false

/-- No request is in flight, and DONE says whether a response waits (R154). -/
def PostLink.Idle (l : PostLink) : Prop := l.request = none ∧ l.busy = false ∧ l.done = l.response.isSome

/-- BUSY says whether a request is in flight, DONE whether a response waits (R154). -/
def PostLink.FlagsFollow (l : PostLink) : Prop := l.busy = l.request.isSome ∧ l.done = l.response.isSome

theorem LinkConsistent.flagsFollow {s : State} (h : LinkConsistent s) : s.link.FlagsFollow := by
  obtain ⟨busy, done, -⟩ := h
  exact ⟨busy, done⟩

theorem LinkConsistent.not_busy {s : State} (h : LinkConsistent s) (hd : s.link.done = true) : s.link.busy = false := by
  obtain ⟨-, -, never, -⟩ := h
  simpa [hd] using never

theorem LinkConsistent.joined {s : State} (h : LinkConsistent s) (hp : s.control.withdrawalPending = true) :
    s.control.state.joined = true := by
  obtain ⟨-, -, -, -, joined, -⟩ := h
  exact joined hp

/-- A request of a kind is in flight, and no response waits (R155). -/
def PostLink.Holds (l : PostLink) (k : RequestKind) : Prop :=
  (∃ r, l.request = some r ∧ r.kind = kindCode k) ∧ l.response = none ∧ l.busy = true ∧ l.done = false

theorem LinkConsistent.of_idle {s : State} (hl : s.link.Idle) (hs : s.AwaitsNothing) : LinkConsistent s := by
  obtain ⟨request, busy, done⟩ := hl
  obtain ⟨joining, leaving, pending⟩ := hs
  simp [LinkConsistent, request, busy, done, joining, leaving, pending]

/-- A consistent link without BUSY has no request, and nobody waits for one. -/
theorem LinkConsistent.idle {s : State} (h : LinkConsistent s) (hb : s.link.busy = false) :
    s.link.Idle ∧ s.AwaitsNothing := by
  obtain ⟨busy, done, -, inFlight, -, -⟩ := h
  rw [hb] at busy inFlight
  have none : ¬(s.control.state = .joining ∨ s.control.state = .leaving ∨ s.control.withdrawalPending = true) :=
    fun h => Bool.false_ne_true (inFlight.mpr h)
  simp only [not_or, Bool.not_eq_true] at none
  exact ⟨⟨by simpa using busy.symm, hb, done⟩, none⟩

/-- The link while START is in flight. -/
theorem LinkConsistent.of_joining {s : State} (hl : s.link.Holds .start) (hs : s.control.state = .joining)
    (hp : s.control.withdrawalPending = false) : LinkConsistent s := by
  obtain ⟨⟨r, request, kind⟩, response, busy, done⟩ := hl
  simp [LinkConsistent, request, kind, response, busy, done, hs, hp]

/-- The link while LEAVE is in flight. -/
theorem LinkConsistent.of_leaving {s : State} (hl : s.link.Holds .leave) (hs : s.control.state = .leaving)
    (hp : s.control.withdrawalPending = false) : LinkConsistent s := by
  obtain ⟨⟨r, request, kind⟩, response, busy, done⟩ := hl
  simp [LinkConsistent, request, kind, response, busy, done, hs, hp]

/-- The link while an AVAIL(withdrawn) is in flight. -/
theorem LinkConsistent.of_withdrawing {s : State} (hl : s.link.Holds .avail) (hs : s.control.state.joined = true)
    (hp : s.control.withdrawalPending = true) : LinkConsistent s := by
  obtain ⟨⟨r, request, kind⟩, response, busy, done⟩ := hl
  simp [LinkConsistent, request, kind, response, busy, done, hs, hp]

/-! ### Steps that take and complete no request -/

/-- A step that takes and completes no request: what the invariant reads is as it was, but that the station may have
moved between MEMBER and HOLDING (R31). -/
def LeavesRequests (s t : State) : Prop :=
  (t.link.request = s.link.request ∧ t.link.response = s.link.response ∧ t.link.busy = s.link.busy ∧
    t.link.done = s.link.done) ∧
  t.control.withdrawalPending = s.control.withdrawalPending ∧
  (t.control.state = s.control.state ∨ s.control.state.joined = true ∧ t.control.state.joined = true)

theorem LeavesRequests.of_eq {s t : State} (hl : t.link = s.link) (hc : t.control = s.control) :
    LeavesRequests s t := by
  unfold LeavesRequests
  rw [hl, hc]
  exact ⟨⟨rfl, rfl, rfl, rfl⟩, rfl, .inl rfl⟩

theorem LeavesRequests.refl (s : State) : LeavesRequests s s := .of_eq rfl rfl

theorem LeavesRequests.trans {s t u : State} (h : LeavesRequests s t) (h' : LeavesRequests t u) :
    LeavesRequests s u := by
  obtain ⟨⟨request, response, busy, done⟩, pending, state⟩ := h
  obtain ⟨⟨request', response', busy', done'⟩, pending', state'⟩ := h'
  refine ⟨⟨request'.trans request, response'.trans response, busy'.trans busy, done'.trans done⟩,
    pending'.trans pending, ?_⟩
  obtain e' | ⟨joined', ends⟩ := state'
  · rw [e']
    exact state
  · obtain e | ⟨joined, -⟩ := state
    · exact .inr ⟨e ▸ joined', ends⟩
    · exact .inr ⟨joined, ends⟩

theorem StationState.joined_not {st : StationState} (h : st.joined = true) : st ≠ .joining ∧ st ≠ .leaving := by
  cases st <;> simp [StationState.joined] at h ⊢

/-- The station is in JOINING, in LEAVING or on the line after such a step exactly where it was before. -/
theorem LeavesRequests.states {s t : State} (h : LeavesRequests s t) :
    (t.control.state = .joining ↔ s.control.state = .joining) ∧
    (t.control.state = .leaving ↔ s.control.state = .leaving) ∧ t.control.state.joined = s.control.state.joined := by
  obtain ⟨-, -, e | ⟨hs, ht⟩⟩ := h
  · rw [e]
    exact ⟨.rfl, .rfl, rfl⟩
  · obtain ⟨sj, sl⟩ := StationState.joined_not hs
    obtain ⟨tj, tl⟩ := StationState.joined_not ht
    simp [sj, sl, tj, tl, hs, ht]

theorem LeavesRequests.consistent {s t : State} (h : LeavesRequests s t) (hs : LinkConsistent s) :
    LinkConsistent t := by
  obtain ⟨joining, leaving, joined⟩ := h.states
  obtain ⟨⟨request, response, busy, done⟩, pending, -⟩ := h
  unfold LinkConsistent
  rw [request, response, busy, done, pending, joining, leaving, joined]
  exact hs

theorem LeavesRequests.awaitsNothing {s t : State} (h : LeavesRequests s t) (hs : s.AwaitsNothing) :
    t.AwaitsNothing := by
  obtain ⟨joining, leaving, -⟩ := h.states
  obtain ⟨-, pending, -⟩ := h
  obtain ⟨sj, sl, sp⟩ := hs
  exact ⟨fun e => sj (joining.mp e), fun e => sl (leaving.mp e), pending.trans sp⟩

theorem Keeps.of_leavesRequests {f : State → State} (h : ∀ s, LeavesRequests s (f s)) : Keeps LinkConsistent f :=
  fun s _ hs => (h s).consistent hs

theorem followCauses_stays (st : StationState) (c : HoldCauses) :
    followCauses st c = st ∨ st.joined = true ∧ (followCauses st c).joined = true := by
  cases st with
  | member | holding => exact .inr ⟨rfl, by unfold followCauses; cases c.isEmpty <;> rfl⟩
  | offline | joining | leaving | faulted => exact .inl rfl

/-- A change of causes moves the station between MEMBER and HOLDING at most (R31). -/
theorem State.setCauses_leavesRequests (c : HoldCauses) (s : State) : LeavesRequests s (s.setCauses c) := by
  refine ⟨by simp, by simp, ?_⟩
  rw [State.setCauses_control_eq]
  dsimp only
  split
  · exact .inl rfl
  · exact followCauses_stays _ c

theorem State.zeroExport_leavesRequests (s : State) : LeavesRequests s s.zeroExport := .of_eq (by simp) (by simp)

theorem State.computeOffer_leavesRequests (s : State) : LeavesRequests s s.computeOffer := .of_eq (by simp) (by simp)

theorem State.floorTest_leavesRequests (s : State) : LeavesRequests s s.floorTest := .of_eq (by simp) (by simp)

theorem State.deviationTest_leavesRequests (m : Nat) (s : State) : LeavesRequests s (s.deviationTest m) :=
  .of_eq (by simp) (by simp)

theorem State.notice_leavesRequests (n : Notice) (s : State) : LeavesRequests s (s.notice n) :=
  .of_eq (by simp) (by simp)

theorem State.noticeAll_leavesRequests (ns : List Notice) (s : State) : LeavesRequests s (s.noticeAll ns) :=
  .of_eq (by simp) (by simp)

/-! ### Completions (R157) -/

theorem PostLink.Idle.of_complete (kind : Byte) (r : ResultCode) (fs : List Byte) (s : State) :
    (s.complete kind r fs).link.Idle := ⟨rfl, rfl, rfl⟩

/-- A response for which nobody goes on waiting. -/
theorem State.complete_consistent (kind : Byte) (r : ResultCode) (fs : List Byte) {s : State} (hs : s.AwaitsNothing) :
    LinkConsistent (s.complete kind r fs) := .of_idle (.of_complete kind r fs s) hs

/-- Without a request in the box BUSY is clear. -/
theorem PostLink.FlagsFollow.idle {l : PostLink} (h : l.FlagsFollow) (hr : l.request = none) : l.Idle := by
  obtain ⟨busy, done⟩ := h
  exact ⟨hr, by rw [busy, hr]; rfl, done⟩

/-- A request in flight completes; where none is, the link is as it was. -/
theorem State.completeInFlight_idle (r : ResultCode) (fs : List Byte) {s : State} (hs : s.link.FlagsFollow) :
    (s.completeInFlight r fs).link.Idle := by
  unfold State.completeInFlight
  split
  · exact .of_complete _ _ _ s
  · exact hs.idle ‹_›

theorem State.completeFaulted_idle {s : State} (hs : s.link.FlagsFollow) : s.completeFaulted.link.Idle := by
  unfold State.completeFaulted
  repeat' split
  · exact .of_complete _ _ _ s
  · exact .of_complete _ _ _ s
  · exact hs.idle ‹_›

/-- At its power-on values, or OFFLINE with the response of RESTART or LEAVE, the part has nothing in flight
(R40, R42). -/
theorem State.offlineWith_consistent (kind : Byte) (fs : List Byte) (q : List NoticeEntry) (s : State) :
    LinkConsistent (s.offlineWith kind fs q) := .of_idle ⟨rfl, rfl, rfl⟩ ⟨nofun, nofun, rfl⟩

/-- Entry into FAULTED completes what is in flight, and the withdrawal waits no more (R29, R134). -/
theorem State.enterFaulted_consistent (e : Evidence) (grantFirst : Bool) {s : State} (hs : LinkConsistent s) :
    LinkConsistent (s.enterFaulted e grantFirst) := by
  have idle := State.completeFaulted_idle hs.flagsFollow
  refine .of_idle ?_ ?_
  · simpa [State.enterFaulted] using idle
  · simp [State.enterFaulted, State.AwaitsNothing]

/-! ### Rounds (R14, R26, R65, R131) -/

theorem State.timerExpires_leavesRequests (idle : Bool) (s : State) : LeavesRequests s (s.timerExpires idle) := by
  unfold State.timerExpires
  split
  · dsimp only
    split
    · exact .of_eq (by simp) (by simp)
    · exact .refl s
  · exact .refl s

theorem State.slotOpens_leavesRequests (idle : Bool) (s : State) : LeavesRequests s (s.slotOpens idle) := by
  unfold State.slotOpens
  dsimp only
  repeat' split
  · exact ⟨⟨rfl, rfl, rfl, rfl⟩, rfl, .inl rfl⟩
  all_goals exact .of_eq rfl rfl

theorem State.judgeIsolation_leavesRequests (s : State) : LeavesRequests s s.judgeIsolation.1 := by
  refine ⟨by simp, ?_, .inl ?_⟩ <;> rw [(State.judgeIsolation_control s).1]

/-- The join completes START, and the station goes on in MEMBER or HOLDING, where no withdrawal waits yet (R26). -/
theorem State.joinIfDue_consistent {s : State} (hs : LinkConsistent s) : LinkConsistent s.joinIfDue := by
  unfold State.joinIfDue
  split
  · rename_i due
    have pending : s.control.withdrawalPending = false := by
      refine Bool.eq_false_iff.mpr fun hp => ?_
      have joined := hs.joined hp
      rw [due.1] at joined
      cases joined
    refine .of_idle ?_ ?_
    · exact State.completeInFlight_idle .ok _ (s := { s with control := _ }) hs.flagsFollow
    · simp only [State.AwaitsNothing, State.completeInFlight_keeps]
      refine ⟨?_, ?_, pending⟩ <;> split <;> nofun
  · exact hs

theorem State.allocate_consistent (order : Arrival) {s : State} (hs : LinkConsistent s) :
    LinkConsistent (s.allocate order) := by
  have judged : ∀ t : State, t.link = s.link → t.control = s.control →
      LinkConsistent t.judgeIsolation.1.offerAtAllocation.1.freezeView.1 := by
    intro t hl hc
    have isolation := (LeavesRequests.of_eq hl hc).trans (State.judgeIsolation_leavesRequests t)
    exact (isolation.trans (.of_eq (by simp) (by simp))).consistent hs
  unfold State.allocate
  exact (State.noticeAll_leavesRequests _ _).consistent (State.joinIfDue_consistent (judged _ (by simp) (by simp)))

theorem State.allocationPoint_keepsLink (order : Arrival) : Keeps LinkConsistent (State.allocationPoint order) := by
  intro s _ hs
  unfold State.allocationPoint
  repeat' split
  · exact State.allocate_consistent order hs
  all_goals exact hs

theorem State.runCompletes_leavesRequests (s : State) : LeavesRequests s s.runCompletes := by
  unfold State.runCompletes
  repeat' split
  · exact .of_eq (by simp) (by simp)
  all_goals exact .refl s

/-! ### The depot line (R8, R15 to R18, R27) -/

theorem State.deliverPeer_leavesRequests (f : Frame) (start : Instant) (s : State) :
    LeavesRequests s (s.deliverPeer f start) := by
  unfold State.deliverPeer
  dsimp only
  repeat' split
  all_goals exact .of_eq (by simp) (by simp)

theorem State.heardMark_leavesRequests (start : Instant) (s : State) : LeavesRequests s (s.heardMark start) := by
  unfold State.heardMark
  dsimp only
  repeat' split
  all_goals exact .of_eq (by simp) (by simp)

theorem State.deliver_consistent (f : Frame) (start : Instant) (grantFirst : Bool) {s : State} (hs : LinkConsistent s) :
    LinkConsistent (s.deliver f start grantFirst) := by
  unfold State.deliver State.duplicateHeard
  repeat' split
  · exact State.enterFaulted_consistent _ _ hs
  · exact hs
  · exact (State.deliverPeer_leavesRequests f start s).consistent hs

theorem State.transmissionEnds_keepsLink (r : Reception) (grantFirst : Bool) :
    Keeps LinkConsistent (State.transmissionEnds r grantFirst) := by
  intro s _ hs
  unfold State.transmissionEnds State.hear
  dsimp only
  repeat' split
  · exact (State.heardMark_leavesRequests _ s).consistent hs
  · exact hs
  · exact hs
  · exact State.deliver_consistent _ _ grantFirst hs
  all_goals exact hs

/-! ### Own frames (R37, R39, R40) -/

theorem State.leaveNotSent_consistent (f : Frame) {s : State} (hs : LinkConsistent s) :
    LinkConsistent (s.leaveNotSent f) := by
  unfold State.leaveNotSent
  split
  · exact State.offlineWith_consistent _ _ _ s
  · exact hs

/-- The announcement completes the AVAIL(withdrawn) in MEMBER or HOLDING (R37). -/
theorem State.withdrawalSent_consistent (f : Frame) {s : State} (hs : LinkConsistent s) :
    LinkConsistent (s.withdrawalSent f) := by
  unfold State.withdrawalSent
  split
  · rename_i announced
    simp only [Bool.and_eq_true] at announced
    obtain ⟨⟨pending, -⟩, -⟩ := announced
    obtain ⟨joining, leaving⟩ := StationState.joined_not (hs.joined pending)
    refine .of_idle ?_ ?_
    · exact State.completeInFlight_idle .ok [] (s := { s with control := _ }) hs.flagsFollow
    · simpa [State.AwaitsNothing] using And.intro joining leaving
  · exact hs

theorem State.outcomeSent_consistent (f : Frame) {s : State} (hs : LinkConsistent s) :
    LinkConsistent (s.outcomeSent f) := by
  unfold State.outcomeSent
  dsimp only
  split
  · exact State.offlineWith_consistent _ _ _ _
  · exact State.withdrawalSent_consistent f hs

theorem State.outcomeCut_consistent (f : Frame) (grantFirst : Bool) {s : State} (hs : LinkConsistent s) :
    LinkConsistent (s.outcomeCut f grantFirst) := by
  unfold State.outcomeCut
  dsimp only
  split
  · exact State.enterFaulted_consistent _ _ hs
  · exact State.leaveNotSent_consistent f hs

/-! ### Requests (R155 to R157) -/

/-- The byte of a request that names a kind is that kind's code. -/
theorem kindCode_of_kindOfByte {b : Byte} {k : RequestKind} (h : kindOfByte b = some k) : b = kindCode k := by
  refine BitVec.eq_of_toNat_eq ?_
  unfold kindOfByte at h
  split at h <;> cases h <;> assumption

/-- A write taken while BUSY is clear holds its record (R155). -/
theorem PostLink.Holds.of_openRequest {b : Byte} {k : RequestKind} (h : kindOfByte b = some k) (len : Byte)
    (fs : List Byte) (s : State) : (s.openRequest b len fs).link.Holds k :=
  ⟨⟨_, rfl, kindCode_of_kindOfByte h⟩, rfl, rfl, rfl⟩

/-- A request handed on: START, LEAVE and AVAIL(withdrawn) stay in flight, the others complete (R157). -/
theorem State.handle_consistent {k : RequestKind} (straps : Straps) (fields : List Byte) {s : State}
    (hk : kindAllowed k s.control.state = true) (hl : s.link.Holds k) (hs : s.AwaitsNothing) :
    LinkConsistent (s.handle k straps fields) := by
  have stored : ∀ r, LeavesRequests s { s with readiness := r } := fun _ => .of_eq rfl rfl
  cases k with
  | start =>
    show LinkConsistent (s.takeStart straps fields)
    rw [State.takeStart_frame]
    exact .of_joining hl rfl rfl
  | profile =>
    show LinkConsistent (s.takeProfile fields)
    unfold State.takeProfile
    split
    · refine State.complete_consistent _ _ _ (LeavesRequests.awaitsNothing (s := s) ?_ hs)
      exact (((stored _).trans (State.setCauses_leavesRequests _ _)).trans (State.computeOffer_leavesRequests _)).trans
        (State.floorTest_leavesRequests _)
    · exact State.complete_consistent _ _ _ hs
  | reading =>
    refine State.complete_consistent _ _ _ (LeavesRequests.awaitsNothing (s := s) ?_ hs)
    exact ((((stored _).trans (State.setCauses_leavesRequests _ _)).trans
      (State.deviationTest_leavesRequests _ _)).trans (State.computeOffer_leavesRequests _)).trans
      (State.floorTest_leavesRequests _)
  | avail =>
    have moved := fun c => State.setCauses_leavesRequests c s
    unfold State.handle
    dsimp only
    split
    · exact State.complete_consistent _ _ _ ((moved _).awaitsNothing hs)
    · obtain ⟨-, -, joined⟩ := (moved { s.control.causes with withdrawn := true }).states
      refine .of_withdrawing ?_ (joined.trans hk) rfl
      simpa [State.takeWithdrawn] using hl
  | takeNotice =>
    show LinkConsistent s.takeHead
    unfold State.takeHead
    split <;> exact State.complete_consistent _ _ _ hs
  | peer | status => exact State.complete_consistent _ _ _ hs
  | leave =>
    obtain ⟨-, -, pending⟩ := hs
    exact .of_leaving hl rfl pending
  | restart => exact State.offlineWith_consistent _ _ _ s

theorem State.takeWrite_consistent (straps : Straps) (b len : Byte) (fs : List Byte) {s : State}
    (hs : LinkConsistent s) : LinkConsistent (s.takeWrite straps b len fs) := by
  unfold State.takeWrite
  split
  · exact hs
  · rename_i hb
    obtain ⟨-, free⟩ := hs.idle (by simpa using hb)
    split
    · exact State.complete_consistent _ _ _ free
    · rename_i hpass
      obtain ⟨hkind, -, -, hallowed, -⟩ := checkRequest_pass hpass
      exact State.handle_consistent straps fs hallowed (.of_openRequest hkind len fs s) free

/-- A read that takes the whole record away leaves the box empty and DONE clear (R158). -/
theorem State.readBack_consistent (n : Nat) {s : State} (hs : LinkConsistent s) : LinkConsistent (s.readBack n) := by
  unfold State.readBack
  dsimp only
  split
  · rename_i taken
    obtain ⟨⟨request, busy, -⟩, free⟩ := hs.idle (hs.not_busy taken.1)
    exact .of_idle ⟨request, busy, rfl⟩ free
  · exact hs

theorem State.transact_keepsLink (straps : Straps) (selector : Byte) (bytes : List Byte) :
    Keeps LinkConsistent (State.transact straps selector bytes) := by
  intro s _ hs
  unfold State.transact
  split
  · unfold State.writeTransaction
    dsimp only
    split
    · exact State.takeWrite_consistent straps _ _ _ hs
    all_goals exact hs
  · exact State.readBack_consistent _ hs
  · unfold State.readFlags
    split <;> exact hs
  · exact hs

/-! ### Inputs and the reading lapse (R33, R34, R110) -/

theorem State.plugFell_leavesRequests (s : State) : LeavesRequests s s.plugFell := by
  unfold State.plugFell
  split
  · have discarded : LeavesRequests s { s with readiness := s.readiness.discarded } := .of_eq rfl rfl
    exact ((discarded.trans (State.setCauses_leavesRequests _ _)).trans (State.computeOffer_leavesRequests _)).trans
      (State.zeroExport_leavesRequests _)
  · exact .refl s

theorem State.plugRose_leavesRequests (s : State) : LeavesRequests s s.plugRose := by
  unfold State.plugRose
  split
  · exact (State.setCauses_leavesRequests _ s).trans (State.zeroExport_leavesRequests _)
  · exact .refl s

theorem State.stopPressed_leavesRequests (s : State) : LeavesRequests s s.stopPressed := by
  unfold State.stopPressed
  repeat' split
  · exact ((State.setCauses_leavesRequests _ s).trans (State.zeroExport_leavesRequests _)).trans
      (State.notice_leavesRequests _ _)
  · exact State.notice_leavesRequests _ s
  · exact .refl s

theorem State.stopFreed_leavesRequests (s : State) : LeavesRequests s s.stopFreed := by
  unfold State.stopFreed
  repeat' split
  · exact (State.setCauses_leavesRequests _ s).trans (State.notice_leavesRequests _ _)
  · exact State.notice_leavesRequests _ s
  · exact .refl s

theorem State.readingLapses_leavesRequests (s : State) : LeavesRequests s s.readingLapses := by
  have reported : ∀ n, LeavesRequests s
      (State.notice n { s with readiness := { s.readiness with lapseReported := true } }) :=
    fun n => .of_eq (by simp) (by simp)
  unfold State.readingLapses
  repeat' split
  · exact ((reported _).trans (State.setCauses_leavesRequests _ _)).trans (State.zeroExport_leavesRequests _)
  · exact reported _
  all_goals exact .refl s

theorem State.lineWentIdle_leavesRequests (s : State) : LeavesRequests s s.lineWentIdle := by
  unfold State.lineWentIdle
  split <;> exact .of_eq rfl rfl

theorem State.periodStarts_leavesRequests (s : State) : LeavesRequests s s.periodStarts := by
  obtain h | ⟨p, h⟩ := s.periodStarts_eq <;> rw [h] <;> exact .of_eq rfl rfl

/-! ### Every step -/

/-- What each meaning keeps, meaning by meaning. -/
theorem linkConsistent_keptByEvents : KeptByEvents LinkConsistent where
  advance dt := .of_leavesRequests fun s => .of_eq (by simp) (by simp)
  settle _ hs := hs
  queue _ _ _ hs := hs
  inputs _ _ _ hs := hs
  powerOn _ _ _ _ := .of_idle ⟨rfl, rfl, rfl⟩ ⟨nofun, nofun, rfl⟩
  transact := State.transact_keepsLink
  transmissionEnds := State.transmissionEnds_keepsLink
  lineWentIdle := .of_leavesRequests State.lineWentIdle_leavesRequests
  timerExpires idle := .of_leavesRequests (State.timerExpires_leavesRequests idle)
  slotOpens idle := .of_leavesRequests (State.slotOpens_leavesRequests idle)
  allocationPoint := State.allocationPoint_keepsLink
  runCompletes := .of_leavesRequests State.runCompletes_leavesRequests
  frameStarts _ _ hs _ _ _ := hs
  frameBlocked _ _ hs _ f _ := State.leaveNotSent_consistent f hs
  frameSent _ _ hs _ f _ := State.outcomeSent_consistent f hs
  frameCut _ _ hs _ f grantFirst _ := State.outcomeCut_consistent f grantFirst hs
  markStopped _ _ hs _ _ := hs
  plugFell := .of_leavesRequests State.plugFell_leavesRequests
  plugRose := .of_leavesRequests State.plugRose_leavesRequests
  stopPressed := .of_leavesRequests State.stopPressed_leavesRequests
  stopFreed := .of_leavesRequests State.stopFreed_leavesRequests
  readingLapses := .of_leavesRequests State.readingLapses_leavesRequests
  periodStarts := .of_leavesRequests State.periodStarts_leavesRequests

/-- Settles O57: every event keeps the link consistent; START, LEAVE and AVAIL(withdrawn) alone stay in flight, each
for as long as Station Control waits for its outcome. -/
theorem stepsKeepTheLink : Obligations.StepsKeepTheLink :=
  fun _ _ hs hl h => linkConsistent_keptByEvents.step h hs hl

end Sys2Proof.Machine
end

section
/-! IRQ, and the transactions of the post link that move the link alone: those without effect, the record of a request,
READ RESPONSE and READ FLAGS (R153, R155, R158 to R160, R171; O7, O8, O9, O19). -/

namespace Sys2Proof.Machine

/-! ### IRQ (R160) -/

theorem State.settle_irq (s : State) :
    s.settle.link.irq = true ↔ s.settle.running = true ∧ (s.settle.link.done = true ∨ s.settle.notices ≠ []) := by
  show (s.running && (s.link.done || !s.notices.isEmpty)) = true ↔
    s.running = true ∧ (s.link.done = true ∨ s.notices ≠ [])
  simp

/-- Settles O7: every command ends by letting IRQ follow its conditions. -/
theorem irqFollows : Obligations.IrqFollows := by
  unfold Obligations.IrqFollows
  refine ⟨fun s => rfl, fun c s t h => ?_⟩
  obtain ⟨u, hu⟩ := exec_answers c s
  cases hu.symm.trans h
  exact u.settle_irq

/-! ### Writes (R153, R155) -/

theorem State.advance_link (dt : Nat) (s : State) : (s.advance dt).link = s.link := by simp

/-- Before a write takes effect BUSY and Station Control are as they were. -/
theorem State.written_busy (dt n : Nat) (s : State) : (s.written dt n).link.busy = s.link.busy := by
  show (s.advance dt).link.busy = s.link.busy
  rw [State.advance_link]

theorem State.written_control (dt n : Nat) (s : State) : (s.written dt n).control = s.control := by
  simp [State.written]

section
variable {dt : Nat} {s : State}

/-- A write at a working part is its transaction after the time it carries. -/
theorem exec_writeRequest (hr : s.running = true) (straps : Straps) (bytes : List Byte) :
    exec (.writeRequest dt straps bytes) s = .next ((s.advance dt).writeTransaction straps bytes).settle :=
  happens_running hr

/-- A write of a record at a working part. -/
theorem exec_writeRequest_record (hr : s.running = true) (straps : Straps) (kind len : Byte) (fs : List Byte) :
    exec (.writeRequest dt straps (kind :: len :: fs)) s =
      .next ((s.written dt (fs.length + 2)).takeWrite straps kind len fs).settle :=
  exec_writeRequest hr straps _

end

theorem State.takeWrite_busy {s : State} (hb : s.link.busy = true) (straps : Straps) (kind len : Byte)
    (fs : List Byte) :
    s.takeWrite straps kind len fs = { s with link := { s.link with overrun := true } } := if_pos hb

/-- Three values of a byte name a transaction (R153). -/
theorem transactionOf_none {sel : Byte} (hw : sel ≠ 0x57) (hr : sel ≠ 0x52) (hf : sel ≠ 0x46) :
    transactionOf sel = none := by
  unfold transactionOf
  split
  · exact absurd (BitVec.eq_of_toNat_eq ‹_›) hw
  · exact absurd (BitVec.eq_of_toNat_eq ‹_›) hr
  · exact absurd (BitVec.eq_of_toNat_eq ‹_›) hf
  · rfl

/-- Settles O8: the selectors one by one, then what is left of a write without two bytes of a record, or over BUSY. -/
theorem transactionsWithoutEffect : Obligations.TransactionsWithoutEffect := by
  unfold Obligations.TransactionsWithoutEffect
  refine ⟨⟨rfl, rfl, rfl, fun _ => transactionOf_none⟩, fun dt n sel straps bytes s hr =>
    ⟨Option.isNone_iff_eq_none, rfl, rfl, rfl, ?unnamed, ?short, ?overBusy⟩⟩
  case unnamed =>
    intro hsel
    refine (happens_running hr).trans ?_
    rw [State.transact_ignored hsel, ← s.advance_link dt]
    rfl
  case short =>
    intro hshort
    rw [exec_writeRequest hr]
    match bytes, hshort with
    | [], _ => rfl
    | [_], _ => rfl
  case overBusy =>
    intro hlong hb
    match bytes, hlong with
    | kind :: len :: fs, _ =>
      rw [exec_writeRequest_record hr, State.takeWrite_busy ((State.written_busy _ _ s).trans hb)]
      rfl

/-! ### The request commands (R171) -/

theorem State.handle_straps {k : RequestKind} (hk : k ≠ .start) (straps straps' : Straps) (fs : List Byte)
    (s : State) : s.handle k straps fs = s.handle k straps' fs := by
  cases k with
  | start => exact absurd rfl hk
  | profile | reading | avail | takeNotice | peer | status | leave | restart => rfl

/-- A write of a record whose kind byte is not START's takes no notice of the straps (R23). -/
theorem State.takeWrite_straps {kind : Byte} (hk : kindOfByte kind ≠ some .start) (straps straps' : Straps)
    (len : Byte) (fs : List Byte) (s : State) :
    s.takeWrite straps kind len fs = s.takeWrite straps' kind len fs := by
  unfold State.takeWrite
  split
  · rfl
  · split
    · rfl
    · rename_i k hpass
      obtain ⟨hkind, -⟩ := checkRequest_pass hpass
      exact State.handle_straps (fun hstart => hk (hstart ▸ hkind)) _ _ _ _

theorem exec_writeRequest_straps {kind : Byte} (hk : kindOfByte kind ≠ some .start) (dt : Nat)
    (straps straps' : Straps) (len : Byte) (fs : List Byte) (s : State) :
    exec (.writeRequest dt straps (kind :: len :: fs)) s = exec (.writeRequest dt straps' (kind :: len :: fs)) s :=
  congrArg (happens dt · s) (funext fun _ => State.takeWrite_straps hk straps straps' len fs _)

/-- Settles O9: START is its write as it stands; the others are theirs with any straps. -/
theorem requestCommandsWriteTheirRecord : Obligations.RequestCommandsWriteTheirRecord := by
  unfold Obligations.RequestCommandsWriteTheirRecord
  intro dt straps len fs s
  have write : ∀ (kind : Byte) (fields : List Byte), kindOfByte kind ≠ some .start →
      exec (.writeRequest dt noStraps (kind :: len :: fields)) s =
        exec (.writeRequest dt straps (kind :: len :: fields)) s :=
    fun kind fields hk => exec_writeRequest_straps hk dt noStraps straps len fields s
  exact ⟨rfl, write 0x02 fs nofun, write 0x03 fs nofun, write 0x04 (0x00 :: fs) nofun, write 0x04 (0x01 :: fs) nofun,
    write 0x05 fs nofun, write 0x06 fs nofun, write 0x07 fs nofun, write 0x08 fs nofun, write 0x09 fs nofun⟩

/-! ### READ RESPONSE and READ FLAGS (R158, R159) -/

theorem exec_readResponse {dt n : Nat} {s : State} (hr : s.running = true) :
    exec (.readResponse dt n) s = .next ((s.advance dt).readBack n).settle := by
  rw [← State.transact_read noStraps]
  exact happens_running hr

theorem exec_readFlags {dt n : Nat} {s : State} (hr : s.running = true) :
    exec (.readFlags dt n) s = .next ((s.advance dt).readFlags n).settle := by
  rw [← State.transact_flags noStraps]
  exact happens_running hr

/-- A READ RESPONSE with a response in the box: the record goes out, and with the last of it the box is emptied. -/
theorem State.readBack_done {s : State} {r : Response} (hd : s.link.done = true) (hr : s.link.response = some r)
    (n : Nat) :
    s.readBack n =
      { s with
        link :=
          { s.link with
            sdo := 0x00 :: clockedOut r.bytes n
            response := if r.bytes.length ≤ n then none else s.link.response
            done := decide (n < r.bytes.length) } } := by
  have answer : s.answer = r.bytes := by
    unfold State.answer
    rw [if_pos hd, hr]
  unfold State.readBack
  rw [answer]
  dsimp only
  by_cases hn : r.bytes.length ≤ n
  · rw [if_pos ⟨hd, hn⟩, if_pos hn, decide_eq_false (Nat.not_lt.mpr hn)]
    rfl
  · rw [if_neg fun h => hn h.2, if_neg hn, decide_eq_true (Nat.lt_of_not_le hn), ← hd]
    rfl

/-- A READ RESPONSE with none: the empty record goes out. -/
theorem State.readBack_empty {s : State} (hd : s.link.done = false) (n : Nat) :
    s.readBack n = s.sends (clockedOut emptyRecord n) := by
  have none : ¬s.link.done = true := Bool.eq_false_iff.mp hd
  have answer : s.answer = emptyRecord := if_neg none
  unfold State.readBack
  rw [answer]
  exact if_neg fun h => none h.1

theorem freeBytes_length (i n : Nat) : (freeBytes i n).length = n := by
  simp [freeBytes]

/-- BUSY, DONE, NOTICE and OVERRUN in bits 0 to 3 (R159). -/
theorem State.flagsByte_toNat (s : State) :
    s.flagsByte.toNat =
      (if s.link.busy then 1 else 0) + (if s.link.done then 2 else 0) + (if s.notices.isEmpty then 0 else 4) +
      (if s.link.overrun then 8 else 0) := by
  unfold State.flagsByte
  rw [bitsByte_four]
  cases s.link.busy <;> cases s.link.done <;> cases s.notices.isEmpty <;> cases s.link.overrun <;> rfl

/-- Settles O19: the codes, then the record read back with and without a response, then the flags byte. -/
theorem readsSendTheRecordAndTheFlags : Obligations.ReadsSendTheRecordAndTheFlags := by
  unfold Obligations.ReadsSendTheRecordAndTheFlags
  refine ⟨⟨rfl, fun n => ⟨BitVec.toNat_ofNat n 8, rfl⟩, by decide⟩, fun dt n s hr => ⟨?record, ?empty⟩,
    fun dt n s hr => ⟨?cut, ?flags⟩⟩
  case record =>
    intro r hd hresponse record
    have link := s.advance_link dt
    rw [exec_readResponse hr, State.readBack_done (by rw [link]; exact hd) (by rw [link]; exact hresponse), link]
    rfl
  case empty =>
    intro hd
    have link := s.advance_link dt
    rw [exec_readResponse hr, State.readBack_empty (by rw [link]; exact hd), ← link]
    rfl
  case cut =>
    rw [exec_readFlags hr, ← s.advance_link dt]
    rfl
  case flags =>
    refine ⟨_, (s.advance dt).flagsByte, freeBytes (s.advance dt).freeIndex n, exec_readFlags hr, ?_,
      freeBytes_length _ n, ?_, ?_⟩
    · rw [State.flagsByte_toNat]
      simp only [State.advance_keeps]
    · rw [State.settle_running ((State.running_of_inputs (s := s) (by simp)).trans hr), ← s.advance_link dt]
      simp [irqOf, State.readFlags, State.sendsOpen, State.sends]
    · simp [State.readFlags, State.sendsOpen, State.sends, State.settle]

end Sys2Proof.Machine
end

section
/-! The checks of a request and the tables they read, and the Notice Queue with TAKE_NOTICE (R155 to R157, R161, R163,
R167, R171, R173 to R175, R178; O10, O15). -/

namespace Sys2Proof.Machine

/-! ### Kinds (R156, R157, R171) -/

/-- The kinds stand at their codes, and no other byte names one. -/
theorem kindOfByte_eq (b : Byte) :
    kindOfByte b =
      [none, some .start, some .profile, some .reading, some .avail, some .takeNotice, some .peer, some .status,
        some .leave, some .restart].getD b.toNat none := by
  unfold kindOfByte
  generalize b.toNat = n
  match n with
  | 0 | 1 | 2 | 3 | 4 | 5 | 6 | 7 | 8 | 9 => rfl
  | _ + 10 => rfl

theorem StationState.joined_iff (st : StationState) : st.joined = true ↔ st = .member ∨ st = .holding := by
  cases st <;> simp [StationState.joined]

theorem kindAllowed_iff (k : RequestKind) (st : StationState) :
    kindAllowed k st = true ↔
      (k = .start → st = .offline) ∧
      (k = .profile ∨ k = .reading ∨ k = .avail ∨ k = .leave → st = .member ∨ st = .holding) := by
  cases k <;> simp [kindAllowed, StationState.joined_iff]

/-! ### Fields (R156, R161, R171) -/

/-- The number of the first field out of range is one more than its place. -/
theorem firstBad_eq_some {oks : List Bool} : ∀ {n : Nat},
    firstBad oks = some n ↔ ∃ i, n = i + 1 ∧ oks[i]? = some false ∧ ∀ j < i, oks[j]? = some true := by
  induction oks with
  | nil => simp [firstBad]
  | cons ok oks ih =>
    intro n
    cases ok with
    | false =>
      constructor
      · intro h
        exact ⟨0, (Option.some.inj h).symm, rfl, nofun⟩
      · rintro ⟨i, rfl, hi, hbefore⟩
        cases i with
        | zero => rfl
        | succ i => cases hbefore 0 (Nat.succ_pos i)
    | true =>
      have step : firstBad (true :: oks) = (firstBad oks).map (· + 1) := rfl
      rw [step, Option.map_eq_some_iff]
      constructor
      · rintro ⟨m, hm, rfl⟩
        obtain ⟨i, rfl, hi, hbefore⟩ := ih.mp hm
        refine ⟨i + 1, rfl, hi, fun j hj => ?_⟩
        cases j with
        | zero => rfl
        | succ j => exact hbefore j (Nat.lt_of_succ_lt_succ hj)
      · rintro ⟨i, rfl, hi, hbefore⟩
        cases i with
        | zero => cases hi
        | succ i => exact ⟨i + 1, ih.mpr ⟨i, rfl, hi, fun j hj => hbefore (j + 1) (Nat.succ_lt_succ hj)⟩, rfl⟩

theorem fieldByte_lt (fs : List Byte) (i : Nat) : fieldByte fs i < 256 := (fs.getD i 0).isLt

/-- A grid specification in range, bit by bit: bits 5 to 2 clear, a sense, and no `either` of a level (R171). -/
theorem gridSpecOf_isSome (n : Nat) :
    (gridSpecOf n).isSome = decide (n / 4 % 16 = 0 ∧ n % 4 ≠ 0 ∧ ¬(n / 64 % 2 = 0 ∧ n % 4 = 3)) := by
  unfold gridSpecOf
  dsimp only
  split
  case h_6 =>
    rename_i high low rising falling either
    refine (decide_eq_false ?_).symm
    rintro ⟨hclear, hsense, heither⟩
    have value : n % 128 = 1 ∨ n % 128 = 2 ∨ n % 128 = 65 ∨ n % 128 = 66 ∨ n % 128 = 67 := by omega
    obtain h | h | h | h | h := value
    · exact high h
    · exact low h
    · exact rising h
    · exact falling h
    · exact either h
  all_goals exact (decide_eq_true (by omega)).symm

theorem patternModeOf_isSome (n : Nat) : (patternModeOf n).isSome = within 0 n 3 := by
  match n with
  | 0 | 1 | 2 | 3 => rfl
  | n + 4 => exact (decide_eq_false (by omega)).symm

theorem planKindOf_isSome (n : Nat) : (planKindOf n).isSome = decide (1 ≤ n ∧ n ≤ 3) := by
  match n with
  | 0 | 1 | 2 | 3 => rfl
  | n + 4 => exact (decide_eq_false (by omega)).symm

theorem planEntryOf_isSome (fs : List Byte) (i : Nat) :
    (planEntryOf fs i).isSome =
      decide ((1 ≤ fieldByte fs i ∧ fieldByte fs i ≤ 3) ∧
        (1 ≤ fieldByte fs (i + 1) ∧ fieldByte fs (i + 1) ≤ 16) ∧ fieldByte fs (i + 2) < fieldByte fs (i + 1)) := by
  rw [Bool.decide_and, ← planKindOf_isSome, Bool.decide_and]
  unfold planEntryOf within
  cases planKindOf (fieldByte fs i) with
  | none => rfl
  | some k =>
    dsimp only
    split
    · rename_i hin
      rw [hin]
      rfl
    · rename_i hout
      rw [Bool.eq_false_iff.mpr hout]
      rfl

/-- An entry of a START's plan beyond the count is not checked (R161). -/
theorem planFieldOk_eq (fs : List Byte) (i : Nat) :
    planFieldOk fs i =
      decide (i < fieldByte fs 33 →
        (1 ≤ fieldByte fs (34 + 3 * i) ∧ fieldByte fs (34 + 3 * i) ≤ 3) ∧
        (1 ≤ fieldByte fs (35 + 3 * i) ∧ fieldByte fs (35 + 3 * i) ≤ 16) ∧
        fieldByte fs (36 + 3 * i) < fieldByte fs (35 + 3 * i)) := by
  unfold planFieldOk
  rw [planEntryOf_isSome, show 34 + 3 * i + 1 = 35 + 3 * i by omega, show 34 + 3 * i + 2 = 36 + 3 * i by omega,
    ← Bool.decide_or, decide_eq_decide, ← Nat.not_lt, Decidable.imp_iff_not_or]

/-- The notice enable set has 17 bits where its first byte is 0 or 1 (R171). -/
theorem enableField_lt_iff (fs : List Byte) : enableField fs < 2 ^ 17 ↔ fieldByte fs 30 ≤ 1 := by
  have second := fieldByte_lt fs 31
  have third := fieldByte_lt fs 32
  unfold enableField
  omega

/-! ### The four checks (R156) -/

theorem checkRequest_unknown {kind : Byte} (h : kindOfByte kind = none) (len : Byte) (fs : List Byte)
    (st : StationState) : checkRequest kind len fs st = .refuse .unknown [] := by
  unfold checkRequest
  rw [h]

section
variable {kind len : Byte} {fs : List Byte} {st : StationState} {k : RequestKind}

theorem checkRequest_length (hk : kindOfByte kind = some k)
    (hl : ¬(len.toNat = kindLength k ∧ fs.length = len.toNat)) :
    checkRequest kind len fs st = .refuse .length [] := by
  unfold checkRequest
  rw [hk]
  exact if_pos hl

theorem checkRequest_state (hk : kindOfByte kind = some k) (hl : len.toNat = kindLength k ∧ fs.length = len.toNat)
    (hs : kindAllowed k st = false) : checkRequest kind len fs st = .refuse .state [] := by
  unfold checkRequest
  rw [hk]
  dsimp only
  rw [if_neg (not_not_intro hl), if_pos hs]

/-- The first three checks passed, the fourth decides. -/
theorem checkRequest_fields (hk : kindOfByte kind = some k) (hl : len.toNat = kindLength k ∧ fs.length = len.toNat)
    (hs : kindAllowed k st = true) :
    checkRequest kind len fs st =
      ((firstBad (fieldChecks k fs)).map fun n => CheckResult.refuse .range [byte n]).getD (.pass k) := by
  unfold checkRequest
  rw [hk]
  dsimp only
  rw [if_neg (not_not_intro hl), if_neg (by rw [hs]; exact nofun)]
  cases firstBad (fieldChecks k fs) <;> rfl

theorem checkRequest_pass_iff :
    checkRequest kind len fs st = .pass k ↔
      kindOfByte kind = some k ∧ len.toNat = kindLength k ∧ fs.length = len.toNat ∧ kindAllowed k st = true ∧
      firstBad (fieldChecks k fs) = none := by
  refine ⟨checkRequest_pass, ?_⟩
  rintro ⟨hk, hlen, hfs, hs, hfields⟩
  rw [checkRequest_fields hk ⟨hlen, hfs⟩ hs, hfields]
  rfl

/-! ### A request taken (R155 to R157) -/

variable {s : State}

theorem exec_writeRequest_refused {dt : Nat} {straps : Straps} {r : ResultCode} {out : List Byte} (hs : s.accepts)
    (h : checkRequest kind len fs s.control.state = .refuse r out) :
    exec (.writeRequest dt straps (kind :: len :: fs)) s =
      .next (State.settle
        { s.written dt (fs.length + 2) with link := (s.written dt (fs.length + 2)).link.answered kind r out }) := by
  obtain ⟨hr, hb⟩ := hs
  have busy : ¬(s.written dt (fs.length + 2)).link.busy = true := by rw [State.written_busy, hb]; exact nofun
  rw [exec_writeRequest_record hr]
  unfold State.takeWrite
  rw [if_neg busy, State.written_control, h]
  rfl

theorem exec_writeRequest_passed {dt : Nat} {straps : Straps} (hs : s.accepts)
    (h : checkRequest kind len fs s.control.state = .pass k) :
    exec (.writeRequest dt straps (kind :: len :: fs)) s =
      .next (State.settle
        (State.handle k straps fs
          { s.written dt (fs.length + 2) with link := (s.written dt (fs.length + 2)).link.holding kind len fs })) :=
  execWriteRequest_pass hs.1 hs.2 h

end

/-- Settles O10: the tables, then a write by what its checks answer. -/
theorem requestChecksInOrder : Obligations.RequestChecksInOrder := by
  unfold Obligations.RequestChecksInOrder
  refine ⟨kindOfByte_eq, rfl, kindAllowed_iff, fun oks => ⟨firstBad_eq_none oks, fun _ => firstBad_eq_some⟩,
    fun fs => ?tables, fun _ _ _ _ _ => checkRequest_pass_iff, fun dt straps kind len fs s hs => ⟨?unknown, ?known⟩⟩
  case tables =>
    intro b w inside grid entry
    have word : ∀ i, fieldWord fs i = w i := fieldWord_eq fs
    have clock : decide (fieldWord fs 23 ≠ fieldWord fs 25) = decide (w 25 ≠ w 23) := by
      rw [word, word, decide_eq_decide]
      exact ne_comm
    refine ⟨?_, ?_, ?_, rfl, rfl, rfl, rfl, rfl, rfl⟩
    · show startChecks fs = _
      unfold startChecks
      rw [clock, decide_eq_decide.mpr (enableField_lt_iff fs)]
      simp only [word, gridSpecOf_isSome, patternModeOf_isSome, planFieldOk_eq]
      rfl
    · show profileChecks fs = _
      unfold profileChecks
      simp only [word]
      rfl
    · show readingChecks fs = _
      unfold readingChecks
      simp only [word]
      rfl
  case unknown =>
    intro hk
    exact exec_writeRequest_refused hs (checkRequest_unknown hk len fs _)
  case known =>
    intro k hk
    refine ⟨fun hl => exec_writeRequest_refused hs (checkRequest_length hk hl), fun hlen hfs =>
      ⟨fun hst => exec_writeRequest_refused hs (checkRequest_state hk ⟨hlen, hfs⟩ hst), fun hst =>
        ⟨fun n hn => exec_writeRequest_refused hs ?_, fun hn => exec_writeRequest_passed hs ?_⟩⟩⟩
    · rw [checkRequest_fields hk ⟨hlen, hfs⟩ hst, hn]
      rfl
    · exact checkRequest_pass_iff.mpr ⟨hk, hlen, hfs, hst, hn⟩

/-! ### The Notice Queue (R173, R174) -/

section
variable {enabled : NoticeKind → Bool} {round : Nat} {n : Notice} {q : List NoticeEntry}

theorem folded_disabled (h : enabled n.kind = false) : folded enabled round [n] q = q :=
  if_neg (Bool.eq_false_iff.mp h)

theorem folded_enabled (h : enabled n.kind = true) : folded enabled round [n] q = foldNotice round n q := if_pos h

/-- A notice coalesces into the first entry of its kind and subject, in that entry's place. -/
theorem foldNotice_coalesces : ∀ {q : List NoticeEntry} {i : Nat} {e : NoticeEntry}, q[i]? = some e →
    e.kind = n.kind ∧ e.subject = n.subject →
    (∀ j < i, ∀ e', q[j]? = some e' → ¬(e'.kind = n.kind ∧ e'.subject = n.subject)) →
    foldNotice round n q =
      q.set i { e with value := n.value, repeats := min 255 (e.repeats + 1), lastRound := round }
  | x :: xs, 0, e, hi, hsame, _ => by
    cases hi
    exact if_pos hsame
  | x :: xs, i + 1, e, hi, hsame, hbefore => by
    have rest := foldNotice_coalesces (q := xs) (i := i) hi hsame
      fun j hj => hbefore (j + 1) (Nat.succ_lt_succ hj)
    exact (if_neg (hbefore 0 (Nat.succ_pos i) x rfl)).trans (congrArg (x :: ·) rest)

/-- A notice of a kind and subject that are not queued forms an entry at the tail. -/
theorem foldNotice_appends (h : ∀ e ∈ q, ¬(e.kind = n.kind ∧ e.subject = n.subject)) :
    foldNotice round n q =
      q ++
        [{ kind := n.kind, subject := n.subject, value := n.value, repeats := 1, firstRound := round
           lastRound := round }] := by
  induction q with
  | nil => rfl
  | cons x xs ih =>
    obtain ⟨hx, hxs⟩ := List.forall_mem_cons.mp h
    exact (if_neg hx).trans (congrArg (x :: ·) (ih hxs))

end

/-! ### TAKE_NOTICE (R167, R175) -/

theorem noticeRecord_length (e : NoticeEntry) : (noticeRecord e).length = 9 := rfl

theorem takeNotice_passes (st : StationState) :
    checkRequest (kindCode .takeNotice) 0x00 [] st = .pass .takeNotice :=
  checkRequest_pass_iff.mpr ⟨rfl, rfl, rfl, rfl, rfl⟩

theorem exec_takeNotice {dt : Nat} {s : State} (hs : s.accepts) :
    exec (.takeNotice dt 0x00 []) s =
      .next (State.settle ((s.written dt 2).openRequest (kindCode .takeNotice) 0x00 []).takeHead) :=
  execWriteRequest_pass (straps := noStraps) hs.1 hs.2 (takeNotice_passes _)

theorem State.takeHead_empty {s : State} (h : s.notices = []) :
    s.takeHead = s.complete (kindCode .takeNotice) .empty [] := by
  unfold State.takeHead
  rw [h]

theorem State.takeHead_cons {s : State} {e : NoticeEntry} {es : List NoticeEntry} (h : s.notices = e :: es) :
    s.takeHead = State.complete (kindCode .takeNotice) .ok (noticeRecord e) { s with notices := es } := by
  unfold State.takeHead
  rw [h]

/-- Settles O15: the enable set, the fold, the record byte by byte, and TAKE_NOTICE with a head and without. -/
theorem takeNoticeTakesTheHead : Obligations.TakeNoticeTakesTheHead := by
  unfold Obligations.TakeNoticeTakesTheHead
  refine ⟨fun s k => ⟨fun h => ?_, fun c h => ?_⟩, ?folds, rfl, fun _ _ _ => ⟨rfl, rfl, rfl⟩, fun e => ?record,
    fun dt s hs => ⟨fun h => ?empty, fun e es h => ⟨noticeRecord_length e, ?head⟩⟩⟩
  · rw [State.enabled_eq, h]
  · rw [State.enabled_eq, h]
    rfl
  case folds =>
    intro enabled round n ns q same
    refine ⟨rfl, rfl, folded_disabled, fun h => ?_⟩
    rw [folded_enabled h]
    exact ⟨fun _ _ => foldNotice_coalesces, foldNotice_appends⟩
  case record =>
    obtain ⟨kind, subject, value, repeats, firstRound, lastRound⟩ := e
    cases subject <;> cases value with
    | number => rfl
    | authority station => cases station <;> rfl
    | evidence evidence => cases evidence <;> rfl
    | presence p => cases p <;> rfl
    | stop active => cases active <;> rfl
  case empty =>
    obtain ⟨-, -, -, -, notices, -⟩ := State.written_keeps dt 2 s
    have queue : ((s.written dt 2).openRequest (kindCode .takeNotice) 0x00 []).notices = [] := notices.trans h
    rw [exec_takeNotice hs, State.takeHead_empty queue]
    rfl
  case head =>
    obtain ⟨-, -, -, -, notices, -⟩ := State.written_keeps dt 2 s
    have queue : ((s.written dt 2).openRequest (kindCode .takeNotice) 0x00 []).notices = e :: es := notices.trans h
    rw [exec_takeNotice hs, State.takeHead_cons queue]
    rfl

end Sys2Proof.Machine
end

section
/-! The Notice Queue: one entry for each kind and subject, none of the own number, at most 47 (R172, R174, R177;
O58). -/

namespace Sys2Proof.Machine

/-! ### Notices that fit a queue (R172, R178) -/

/-- A notice as a station with this number makes it: a subject for PEER_CHANGED alone, and that a peer's number. -/
def Notice.Fits (own : Option Nat) (n : Notice) : Prop :=
  (n.kind = .peerChanged ↔ n.subject.isSome = true) ∧ ∀ k, n.subject = some k → k < 32 ∧ own ≠ some k

theorem Notice.fits_of_subjectless {own : Option Nat} {n : Notice} (hk : n.kind ≠ .peerChanged)
    (hs : n.subject = none) : n.Fits own := by
  simp [Notice.Fits, hk, hs]

theorem numbered_fits {k : NoticeKind} (hk : k ≠ .peerChanged) (v : Nat) (own : Option Nat) :
    (numbered k v).Fits own :=
  Notice.fits_of_subjectless hk rfl

theorem peerNotice_fits {own : Option Nat} {k : Nat} (hk : k < 32) (hne : own ≠ some k) (p : Presence) :
    (peerNotice k p).Fits own :=
  ⟨iff_of_true rfl rfl, fun j hj => by cases hj; exact ⟨hk, hne⟩⟩

theorem forall_mem_ite_singleton {α : Type} {P : α → Prop} {c : Prop} [Decidable c] {a : α} (h : P a) :
    ∀ b ∈ (if c then [a] else []), P b := by
  intro b hb
  split at hb
  · rwa [List.mem_singleton.mp hb]
  · cases hb

/-! ### How many entries a queue can hold (R172) -/

/-- What no two entries share (R172). -/
def NoticeEntry.key (e : NoticeEntry) : NoticeKind × Option Nat := (e.kind, e.subject)

def Notice.key (n : Notice) : NoticeKind × Option Nat := (n.kind, n.subject)

/-- The sixteen kinds whose notices carry no subject (R178). -/
def subjectlessKinds : List NoticeKind :=
  [.windowOpened, .windowClosed, .targetChanged, .authorityChanged, .grantChanged, .floorReached, .readingLapsed,
   .stageDeviation, .stopChanged, .isolated, .lineRestored, .viewSplit, .duplicateNumber, .runAborted, .clockStepped,
   .lineErrors]

theorem mem_subjectlessKinds {k : NoticeKind} (h : k ≠ .peerChanged) : k ∈ subjectlessKinds := by
  cases k <;> simp [subjectlessKinds] at h ⊢

/-- Every kind and subject that an entry can have at the station with this number. -/
def possibleKeys (own : Nat) : List (NoticeKind × Option Nat) :=
  (subjectlessKinds.map fun k => (k, none)) ++ ((List.range 32).erase own).map fun k => (.peerChanged, some k)

theorem possibleKeys_length {own : Nat} (h : own < 32) : (possibleKeys own).length = 47 := by
  simp [possibleKeys, subjectlessKinds, List.length_erase_of_mem (List.mem_range.mpr h)]

theorem NoticeEntry.wf.key_mem {e : NoticeEntry} (h : e.wf) {own : Nat} (hne : e.subject ≠ some own) :
    e.key ∈ possibleKeys own := by
  obtain ⟨hkind, hlt, -⟩ := h
  refine List.mem_append.mpr ?_
  cases hs : e.subject with
  | none =>
    have hk : e.kind ≠ .peerChanged := fun hk => by simpa [hs] using hkind.mp hk
    exact .inl (List.mem_map.mpr ⟨e.kind, mem_subjectlessKinds hk, congrArg _ hs.symm⟩)
  | some k =>
    have hk : e.kind = .peerChanged := hkind.mpr (by rw [hs]; rfl)
    have hother : k ≠ own := fun h => hne (hs.trans (congrArg some h))
    have hpeer : k ∈ (List.range 32).erase own :=
      (List.mem_erase_of_ne hother).mpr (List.mem_range.mpr (hlt k hs))
    exact .inr (List.mem_map.mpr ⟨k, hpeer, Prod.ext hk.symm hs.symm⟩)

/-- Sixteen kinds without a subject, and 31 peers: there is no room for a 48th entry (R172). -/
theorem length_le_of_keys_nodup {q : List NoticeEntry} {own : Nat} (hown : own < 32)
    (hkeys : (q.map NoticeEntry.key).Nodup) (hwf : ∀ e ∈ q, e.wf) (hne : ∀ e ∈ q, e.subject ≠ some own) :
    q.length ≤ 47 := by
  have hsub : q.map NoticeEntry.key ⊆ possibleKeys own := by
    intro key hkey
    obtain ⟨e, he, rfl⟩ := List.mem_map.mp hkey
    exact (hwf e he).key_mem (hne e he)
  calc q.length = (q.map NoticeEntry.key).length := (List.length_map _).symm
    _ ≤ (possibleKeys own).length := hkeys.length_le_of_subset hsub
    _ = 47 := possibleKeys_length hown

/-! ### A notice folded in (R174) -/

section
variable {round : Nat} {n : Notice}

/-- A notice adds its kind and subject to those queued, unless they are queued already. -/
theorem foldNotice_keys (q : List NoticeEntry) :
    (foldNotice round n q).map NoticeEntry.key =
      if n.key ∈ q.map NoticeEntry.key then q.map NoticeEntry.key else q.map NoticeEntry.key ++ [n.key] := by
  induction q with
  | nil => rfl
  | cons e es ih =>
    by_cases h : e.kind = n.kind ∧ e.subject = n.subject
    · have hkey : n.key = e.key := Prod.ext h.1.symm h.2.symm
      rw [foldNotice, if_pos h, List.map_cons, if_pos (by rw [hkey]; exact List.mem_cons_self)]
      rfl
    · have hkey : n.key ≠ e.key := fun hk => h ⟨(congrArg Prod.fst hk).symm, (congrArg Prod.snd hk).symm⟩
      rw [foldNotice, if_neg h, List.map_cons, List.map_cons, ih]
      simp only [List.mem_cons, hkey, false_or]
      split <;> rfl

theorem foldNotice_keys_nodup {q : List NoticeEntry} (h : (q.map NoticeEntry.key).Nodup) :
    ((foldNotice round n q).map NoticeEntry.key).Nodup := by
  rw [foldNotice_keys]
  split
  · exact h
  · rename_i hnew
    have single : [n.key].Nodup := List.nodup_cons.mpr ⟨List.not_mem_nil, List.nodup_nil⟩
    refine List.nodup_append.mpr ⟨h, single, fun key hkey last hlast => ?_⟩
    rw [List.mem_singleton.mp hlast]
    exact fun heq => hnew (heq ▸ hkey)

/-- What holds of the entries queued holds after the fold, if it holds of a new entry and outlives a coalescing. -/
theorem forall_mem_foldNotice {P : NoticeEntry → Prop}
    (hnew : P { kind := n.kind, subject := n.subject, value := n.value, repeats := 1, firstRound := round,
                lastRound := round })
    (hfold : ∀ e, P e → P { e with value := n.value, repeats := min 255 (e.repeats + 1), lastRound := round }) :
    ∀ {q : List NoticeEntry}, (∀ e ∈ q, P e) → ∀ e ∈ foldNotice round n q, P e
  | [], _ => fun e he => by rwa [List.mem_singleton.mp he]
  | x :: xs, hq => by
    obtain ⟨hx, hxs⟩ := List.forall_mem_cons.mp hq
    unfold foldNotice
    split
    · exact List.forall_mem_cons.mpr ⟨hfold x hx, hxs⟩
    · exact List.forall_mem_cons.mpr ⟨hx, forall_mem_foldNotice hnew hfold hxs⟩

theorem foldNotice_wf {own : Option Nat} (hn : n.Fits own) (hr : round < 65536) {q : List NoticeEntry}
    (hq : ∀ e ∈ q, e.wf) : ∀ e ∈ foldNotice round n q, e.wf := by
  obtain ⟨hkind, hsubject⟩ := hn
  refine forall_mem_foldNotice ?_ (fun e he => ?_) hq
  · exact ⟨hkind, fun k hk => (hsubject k hk).1, Nat.le_refl 1, Nat.le_add_left 1 254, hr, hr⟩
  · obtain ⟨hkind, hlt, -, -, hfirst, -⟩ := he
    exact ⟨hkind, hlt, by dsimp only; omega, Nat.min_le_left _ _, hfirst, hr⟩

theorem foldNotice_subject {own : Nat} (hn : n.Fits (some own)) {q : List NoticeEntry}
    (hq : ∀ e ∈ q, e.subject ≠ some own) : ∀ e ∈ foldNotice round n q, e.subject ≠ some own := by
  obtain ⟨-, hsubject⟩ := hn
  exact forall_mem_foldNotice (fun h => (hsubject own h).2 rfl) (fun _ he => he) hq

end

/-! ### The invariant, and what leaves it alone -/

/-- What a well-formed queue rests on: 32 peers, a round count of 16 bits, and an own number wherever a configuration
enables notices (R44, R14, R173). -/
def QueueGrounds (s : State) : Prop :=
  s.peers.entries.length = 32 ∧ s.timer.roundCount < 65536 ∧
  (s.control.configuration ≠ none → ∃ n, s.control.number = some n ∧ n < 32)

/-- The queue well-formed, with its grounds: what O58 says every step keeps, made an invariant of its own. -/
def QueueInv (s : State) : Prop := QueueGrounds s ∧ NoticeQueueWf s

theorem QueueInv.of_wf {s : State} (hs : StationWf s) (hp : PeerTableWf s) (hq : NoticeQueueWf s) : QueueInv s := by
  obtain ⟨hoff, hon, hround⟩ := hs
  obtain ⟨h32, -⟩ := hp
  refine ⟨⟨h32, hround, fun hc => ?_⟩, hq⟩
  have hst : s.control.state ≠ .offline := by
    intro hst
    obtain ⟨-, -, hnone, -⟩ := hoff hst
    exact hc hnone
  exact (hon hst).1

theorem QueueInv.entries_length {s : State} (hs : QueueInv s) : s.peers.entries.length = 32 := by
  obtain ⟨⟨h32, -⟩, -⟩ := hs
  exact h32

/-- Two states alike in what the invariant reads. -/
def SameQueue (s t : State) : Prop :=
  t.notices = s.notices ∧ t.control.number = s.control.number ∧
  t.control.configuration = s.control.configuration ∧ t.timer.roundCount = s.timer.roundCount ∧
  t.peers.entries.length = s.peers.entries.length

theorem QueueInv.of_same {s t : State} (hs : QueueInv s) (h : SameQueue s t) : QueueInv t := by
  obtain ⟨queue, number, configuration, round, peers⟩ := h
  unfold QueueInv QueueGrounds NoticeQueueWf at hs ⊢
  rw [queue, number, configuration, round, peers]
  exact hs

theorem SameQueue.trans {s t u : State} (h : SameQueue s t) (h' : SameQueue t u) : SameQueue s u := by
  obtain ⟨queue, number, configuration, round, peers⟩ := h
  obtain ⟨queue', number', configuration', round', peers'⟩ := h'
  exact ⟨queue'.trans queue, number'.trans number, configuration'.trans configuration, round'.trans round,
    peers'.trans peers⟩

theorem SameQueue.refl (s : State) : SameQueue s s := ⟨rfl, rfl, rfl, rfl, rfl⟩

/-- What moves neither the queue nor its grounds keeps the invariant. -/
theorem Keeps.of_sameQueue {f : State → State} (h : ∀ s, SameQueue s (f s)) : Keeps QueueInv f :=
  fun s _ hs => hs.of_same (h s)

/-- Without a number and a configuration the queue is only kept or shortened. -/
theorem QueueInv.of_unnumbered {s t : State} (hs : QueueInv s) (hq : t.notices = s.notices ∨ t.notices = [])
    (hn : t.control.number = none) (hc : t.control.configuration = none) (hr : t.timer.roundCount = 0)
    (hp : t.peers.entries.length = 32) : QueueInv t := by
  obtain ⟨-, hkeys, hwf, -, hlen⟩ := hs
  refine ⟨⟨hp, by rw [hr]; decide, fun h => absurd hc h⟩, ?_⟩
  unfold NoticeQueueWf
  obtain hq | hq := hq <;> rw [hq, hn]
  · exact ⟨hkeys, hwf, nofun, hlen⟩
  · exact ⟨List.nodup_nil, nofun, nofun, Nat.zero_le _⟩

theorem QueueInv.offlineWith {s : State} (hs : QueueInv s) (k : Byte) (fs : List Byte) {q : List NoticeEntry}
    (hq : q = s.notices ∨ q = []) : QueueInv (s.offlineWith k fs q) :=
  hs.of_unnumbered hq rfl rfl rfl rfl

/-! ### Notices made (R173, R174) -/

/-- A notice of an enabled kind finds a number latched, so that its fold leaves 47 entries at most; one of another kind
is dropped. -/
theorem QueueInv.notice {s : State} (hs : QueueInv s) {n : Notice} (hn : n.Fits s.control.number) :
    QueueInv (s.notice n) := by
  unfold State.notice
  split
  · rename_i henabled
    obtain ⟨⟨hpeers, hround, hnumbered⟩, hkeys, hwf, hne, -⟩ := hs
    have hc : s.control.configuration ≠ none := by
      intro hc
      rw [State.enabled_eq, hc] at henabled
      cases henabled
    obtain ⟨own, hown, hlt⟩ := hnumbered hc
    have keys := foldNotice_keys_nodup (round := s.timer.roundCount) (n := n) hkeys
    have wf := foldNotice_wf hn hround hwf
    have subject := foldNotice_subject (round := s.timer.roundCount) (hown ▸ hn) (hne own hown)
    refine ⟨⟨hpeers, hround, hnumbered⟩, keys, wf, fun k hk => ?_, length_le_of_keys_nodup hlt keys wf subject⟩
    obtain rfl : own = k := Option.some.inj (hown.symm.trans hk)
    exact subject
  · exact hs

theorem QueueInv.noticeAll {ns : List Notice} : ∀ {s : State}, QueueInv s → (∀ n ∈ ns, n.Fits s.control.number) →
    QueueInv (s.noticeAll ns) := by
  induction ns with
  | nil => exact fun hs _ => hs
  | cons n ns ih =>
    intro s hs hns
    obtain ⟨hn, hns⟩ := List.forall_mem_cons.mp hns
    exact ih (hs.notice hn) (by simpa using hns)

theorem QueueInv.noticeAll_of_same {s t : State} (hs : QueueInv s) (h : SameQueue s t) {ns : List Notice}
    (hns : ∀ n ∈ ns, n.Fits s.control.number) : QueueInv (t.noticeAll ns) := by
  refine QueueInv.noticeAll (hs.of_same h) ?_
  obtain ⟨-, number, -⟩ := h
  rwa [number]

/-! ### The shared operations -/

theorem State.setCauses_sameQueue (c : HoldCauses) (s : State) : SameQueue s (s.setCauses c) := by
  simp [SameQueue]

theorem State.setApplied_sameQueue (a : Nat) (s : State) : SameQueue s (s.setApplied a) := ⟨rfl, rfl, rfl, rfl, rfl⟩

theorem State.zeroExport_sameQueue (s : State) : SameQueue s s.zeroExport := s.setApplied_sameQueue 0

theorem QueueInv.floorTest {s : State} (hs : QueueInv s) : QueueInv s.floorTest := by
  unfold State.floorTest
  split
  · exact (hs.of_same (by simp [SameQueue])).notice (numbered_fits (by decide) _ _)
  · exact hs

theorem QueueInv.deviationTest {s : State} (hs : QueueInv s) (m : Nat) : QueueInv (s.deviationTest m) := by
  unfold State.deviationTest
  dsimp only
  split
  · exact QueueInv.notice (hs.of_same (by simp [SameQueue])) (numbered_fits (by decide) _ _)
  · exact hs.of_same (by simp [SameQueue])

theorem QueueInv.abortRun {s : State} (hs : QueueInv s) : QueueInv s.abortRun := by
  unfold State.abortRun
  split
  · refine QueueInv.notice ?_ (numbered_fits (by decide) _ _)
    exact hs
  · exact hs

theorem grantNotice_fits (g : Nat) (own : Option Nat) : (grantNotice g).Fits own := numbered_fits (by decide) g own

theorem State.grantZeroed_fit (s : State) (own : Option Nat) : ∀ n ∈ s.grantZeroed, n.Fits own :=
  forall_mem_ite_singleton (grantNotice_fits 0 own)

theorem QueueInv.enterFaulted {s : State} (hs : QueueInv s) (e : Evidence) (grantFirst : Bool) :
    QueueInv (s.enterFaulted e grantFirst) := by
  have zeroed := s.grantZeroed_fit
  have duplicate : ∀ own, Notice.Fits own { kind := .duplicateNumber, subject := none, value := .evidence e } :=
    fun _ => Notice.fits_of_subjectless nofun rfl
  unfold State.enterFaulted
  dsimp only
  refine QueueInv.noticeAll (hs.of_same (by simp [SameQueue])) ?_
  split
  · exact List.forall_mem_append.mpr ⟨zeroed _, List.forall_mem_singleton.mpr (duplicate _)⟩
  · exact List.forall_mem_cons.mpr ⟨duplicate _, zeroed _⟩

/-! ### Rounds (R14, R136) -/

theorem QueueInv.reportRound {s : State} (hs : QueueInv s) : QueueInv s.reportRound := by
  unfold State.reportRound
  split
  · dsimp only
    split
    · exact QueueInv.noticeAll (hs.of_same (by simp [SameQueue])) (s.grantZeroed_fit _)
    · exact hs.of_same (.refl s)
  · exact hs

/-- The round count goes up within its 16 bits (R14). -/
theorem QueueInv.opened {s : State} (hs : QueueInv s) (anchor : Instant) : QueueInv (s.opened anchor) := by
  obtain ⟨⟨hpeers, -, hnumbered⟩, hq⟩ := hs
  exact ⟨⟨hpeers, Nat.mod_lt _ (by decide), hnumbered⟩, hq⟩

theorem QueueInv.openRound {s : State} (hs : QueueInv s) (anchor : Instant) : QueueInv (s.openRound anchor) := by
  rw [State.openRound_eq]
  exact (hs.opened anchor).reportRound.of_same (by simp [SameQueue])

theorem State.sendMark_sameQueue (a : Instant) (idle : Bool) (s : State) : SameQueue s (s.sendMark a idle) := by
  simp [SameQueue]

theorem State.timerExpires_keepsQueue (idle : Bool) : Keeps QueueInv (State.timerExpires idle) := by
  intro s _ hs
  unfold State.timerExpires
  split
  · dsimp only
    split
    · exact (hs.openRound _).of_same (State.sendMark_sameQueue _ idle _)
    · exact hs
  · exact hs

theorem State.slotOpens_sameQueue (idle : Bool) (s : State) : SameQueue s (s.slotOpens idle) := by
  unfold State.slotOpens
  dsimp only
  repeat' split
  all_goals exact SameQueue.refl s

/-! ### The allocation point (R9, R53, R60, R96, R103, R128) -/

/-- Only peers change their presence at an ageing: the own entry is as it was (R45, R53). -/
theorem presenceNotices_fit {t : PeerTable} (h32 : t.entries.length = 32) (c : StationControl) :
    ∀ n ∈ presenceNotices 0 t.entries (t.agedEntries c.number), n.Fits c.number := by
  rw [PeerTable.presenceNotices_afterAgeing h32 c]
  intro n hn
  obtain ⟨k, hk, hn⟩ := List.mem_flatMap.mp hn
  have hk : k < 32 := List.mem_range.mp hk
  split at hn
  · cases hn
  · rename_i hchanged
    rw [List.mem_singleton.mp hn]
    refine peerNotice_fits hk (fun hown => hchanged ?_) _
    rw [PeerTable.afterAgeing_entry c h32 hk, if_neg (by simp [isPeer_iff, hown])]
    cases (t.entry k).presence <;> rfl

theorem State.agePeers_fit {s : State} (h32 : s.peers.entries.length = 32) :
    ∀ n ∈ s.agePeers.2, n.Fits s.control.number := by
  refine List.forall_mem_append.mpr ⟨presenceNotices_fit h32 s.control, fun n hn => ?_⟩
  split at hn
  · cases hn
  · rw [List.mem_singleton.mp hn]
    exact Notice.fits_of_subjectless nofun rfl

theorem windowNotices_fit (held adopted : SignalPart) (own : Option Nat) :
    ∀ n ∈ windowNotices held adopted, n.Fits own := by
  intro n hn
  unfold windowNotices at hn
  repeat' split at hn
  all_goals simp only [List.mem_singleton, List.not_mem_nil] at hn
  all_goals rw [hn]; exact numbered_fits (by decide) _ _

theorem State.judgeIsolation_fit (s : State) (own : Option Nat) : ∀ n ∈ s.judgeIsolation.2, n.Fits own := by
  rw [(State.judgeIsolation_control s).2]
  intro n hn
  repeat' split at hn
  all_goals simp only [List.mem_singleton, List.not_mem_nil] at hn
  all_goals rw [hn]; exact numbered_fits (by decide) _ _

theorem State.freezeView_fit (s : State) (own : Option Nat) : ∀ n ∈ s.freezeView.2, n.Fits own := by
  cases hc : s.control.configuration with
  | none => simp [State.freezeView, hc]
  | some c =>
    rw [freezeView_some hc]
    split
    · exact forall_mem_ite_singleton (numbered_fits (by decide) _ _)
    · exact nofun

theorem forall_mem_arrivalOrder {P : Notice → Prop} (o : Arrival) {ordered floor isolation lineErrors : List Notice}
    (ho : ∀ n ∈ ordered, P n) (hf : ∀ n ∈ floor, P n) (hi : ∀ n ∈ isolation, P n) (hl : ∀ n ∈ lineErrors, P n) :
    ∀ n ∈ arrivalOrder o ordered floor isolation lineErrors, P n := by
  obtain ⟨perm, -⟩ := arrivalOrder_arranges o ordered floor isolation lineErrors
  intro n hn
  have hmem := perm.mem_iff.mp hn
  simp only [List.mem_append] at hmem
  obtain ((h | h) | h) | h := hmem
  · exact ho n h
  · exact hf n h
  · exact hi n h
  · exact hl n h

theorem State.joinIfDue_sameQueue (s : State) : SameQueue s s.joinIfDue :=
  ⟨by simp, s.joinIfDue_number, by rw [State.joinIfDue_control], by simp, by simp⟩

theorem State.freezeView_sameQueue (s : State) : SameQueue s s.freezeView.1 :=
  ⟨by simp, by simp, by simp, s.freezeView_roundCount, by simp⟩

theorem State.judgeIsolation_sameQueue (s : State) : SameQueue s s.judgeIsolation.1 := by
  obtain ⟨control, -⟩ := State.judgeIsolation_control s
  exact ⟨by simp, by rw [control], by rw [control], by simp, by simp⟩

theorem State.offerAtAllocation_sameQueue (s : State) : SameQueue s s.offerAtAllocation.1 := by
  simp [SameQueue]

theorem QueueInv.allocate {s : State} (hs : QueueInv s) (order : Arrival) : QueueInv (s.allocate order) := by
  have h32 := hs.entries_length
  have aged : ∀ t : State, t.peers = s.peers → t.control.number = s.control.number →
      ∀ n ∈ t.agePeers.2, n.Fits s.control.number := by
    intro t ht hn
    rw [← hn]
    exact State.agePeers_fit (ht ▸ h32)
  unfold State.allocate
  dsimp only
  refine hs.noticeAll_of_same ?same (forall_mem_arrivalOrder order ?ordered ?floor ?isolation ?lineErrors)
  case same =>
    refine SameQueue.trans ?_ (State.joinIfDue_sameQueue _)
    refine SameQueue.trans ?_ (State.freezeView_sameQueue _)
    refine SameQueue.trans (SameQueue.trans ?_ (State.judgeIsolation_sameQueue _)) (State.offerAtAllocation_sameQueue _)
    exact ⟨rfl, rfl, rfl, rfl, PeerTable.afterAgeing_length s.peers s.control⟩
  case ordered =>
    refine List.forall_mem_append.mpr ⟨List.forall_mem_append.mpr ⟨?_, ?_⟩, ?_⟩
    · exact aged _ rfl rfl
    · exact windowNotices_fit _ _ _
    · exact State.freezeView_fit _ _
  case floor => exact forall_mem_ite_singleton (numbered_fits (by decide) _ _)
  case isolation => exact State.judgeIsolation_fit _ _
  case lineErrors => exact forall_mem_ite_singleton (numbered_fits (by decide) _ _)

theorem State.allocationPoint_keepsQueue (order : Arrival) : Keeps QueueInv (State.allocationPoint order) := by
  intro s _ hs
  unfold State.allocationPoint
  repeat' split
  · exact hs.allocate order
  all_goals exact hs

theorem QueueInv.completeRun {s : State} (hs : QueueInv s) (v : RoundView) : QueueInv (s.completeRun v) := by
  have settled : QueueInv (s.settleFloorHold v) := hs.of_same (by simp [SameQueue])
  unfold State.completeRun
  dsimp only
  split
  · exact settled
  · have changed := grantNotice_fits (v.ownGrant s.grant.splitSeen) s.control.number
    refine QueueInv.of_same (QueueInv.notice ?_ (n := grantNotice _) ?_) (State.setApplied_sameQueue _ _)
    · exact settled
    · simpa using changed

theorem State.runCompletes_keepsQueue : Keeps QueueInv State.runCompletes := by
  intro s _ hs
  unfold State.runCompletes
  split
  · split
    · exact hs.completeRun _
    · exact hs
  · exact hs

/-! ### The depot line (R8, R15 to R18, R46 to R49, R76) -/

theorem QueueInv.storeFrame {s : State} (hs : QueueInv s) {f : Frame} (hf : f.valid = true)
    (hne : s.control.number ≠ some f.station) : QueueInv (s.storeFrame f) := by
  obtain ⟨⟨hstation, -⟩, -⟩ := (Frame.valid_iff f).mp hf
  have fits := peerNotice_fits (Nat.lt_succ_of_le hstation) hne
  have stored : ∀ p : PeerTable, p.entries.length = s.peers.entries.length → QueueInv { s with peers := p } :=
    fun p hp => hs.of_same ⟨rfl, rfl, rfl, rfl, hp⟩
  unfold State.storeFrame
  dsimp only
  repeat' split
  · exact (stored _ List.length_set).notice (fits _)
  · exact stored _ List.length_set
  · exact stored _ List.length_set
  · exact (stored _ List.length_set).notice (fits _)

theorem QueueInv.judgeClock {s : State} (hs : QueueInv s) (f : Frame) : QueueInv (s.judgeClock f) := by
  unfold State.judgeClock
  split
  · dsimp only
    repeat' split
    · exact hs
    · refine QueueInv.notice ?_ (numbered_fits (by decide) _ _)
      exact hs
    · exact hs
    · exact hs
  · exact hs

theorem QueueInv.reanchor {s : State} (hs : QueueInv s) (a : Instant) : QueueInv (s.reanchor a) :=
  hs.abortRun.of_same (.refl _)

theorem QueueInv.countCorrupt {s : State} (hs : QueueInv s) : QueueInv s.countCorrupt := hs.of_same (.refl s)

theorem QueueInv.deliverPeer {s : State} (hs : QueueInv s) {f : Frame} (hf : f.valid = true) (start : Instant)
    (hne : s.control.number ≠ some f.station) : QueueInv (s.deliverPeer f start) := by
  unfold State.deliverPeer
  dsimp only
  repeat' split
  · exact (hs.storeFrame hf hne).judgeClock f
  · exact ((hs.reanchor _).storeFrame hf (by simpa using hne)).judgeClock f
  · exact hs.countCorrupt.storeFrame hf hne
  · exact hs

theorem QueueInv.heardMark {s : State} (hs : QueueInv s) (start : Instant) : QueueInv (s.heardMark start) := by
  unfold State.heardMark
  repeat' split
  · refine QueueInv.openRound ?_ start
    exact hs.abortRun
  · exact hs.openRound start
  · exact hs.countCorrupt
  · exact hs

theorem QueueInv.deliver {s : State} (hs : QueueInv s) {f : Frame} (hf : f.valid = true) (start : Instant)
    (grantFirst : Bool) : QueueInv (s.deliver f start grantFirst) := by
  unfold State.deliver State.duplicateHeard
  repeat' split
  · exact hs.enterFaulted _ _
  · exact hs
  · rename_i hne
    exact hs.deliverPeer hf start (Ne.symm hne)

theorem State.transmissionEnds_keepsQueue (r : Reception) (grantFirst : Bool) :
    Keeps QueueInv (State.transmissionEnds r grantFirst) := by
  intro s _ hs
  unfold State.transmissionEnds State.hear
  dsimp only
  repeat' split
  · exact hs.heardMark _
  · exact hs
  · exact hs.countCorrupt
  · rename_i hread
    exact hs.deliver (chars_of_readFrame hread).1 _ grantFirst
  · exact hs.countCorrupt
  · exact hs

theorem State.lineWentIdle_sameQueue (s : State) : SameQueue s s.lineWentIdle := by
  unfold State.lineWentIdle
  split <;> exact ⟨rfl, rfl, rfl, rfl, rfl⟩

/-! ### Own frames (R12, R37, R39, R40) -/

theorem QueueInv.leaveNotSent {s : State} (hs : QueueInv s) (f : Frame) : QueueInv (s.leaveNotSent f) := by
  unfold State.leaveNotSent
  split
  · exact hs.offlineWith _ _ (.inl rfl)
  · exact hs

theorem State.withdrawalSent_sameQueue (f : Frame) (s : State) : SameQueue s (s.withdrawalSent f) := by
  unfold State.withdrawalSent
  split
  · simp [SameQueue]
  · exact SameQueue.refl s

theorem QueueInv.outcomeSent {s : State} (hs : QueueInv s) (f : Frame) : QueueInv (s.outcomeSent f) := by
  unfold State.outcomeSent
  dsimp only
  split
  · exact QueueInv.offlineWith (hs.of_same ⟨rfl, rfl, rfl, rfl, rfl⟩) _ _ (.inl rfl)
  · exact QueueInv.of_same (hs.of_same ⟨rfl, rfl, rfl, rfl, rfl⟩) (State.withdrawalSent_sameQueue f _)

theorem QueueInv.outcomeCut {s : State} (hs : QueueInv s) (f : Frame) (grantFirst : Bool) :
    QueueInv (s.outcomeCut f grantFirst) := by
  unfold State.outcomeCut
  dsimp only
  split
  · refine QueueInv.enterFaulted ?_ _ _
    exact hs
  · refine QueueInv.leaveNotSent ?_ f
    exact hs

/-! ### Requests (R23, R36, R42, R100, R101, R167, R177) -/

/-- The purge leaves no notice about the number that START latches (R177). -/
theorem purgedNotices_subject (c : Configuration) (own : Nat) {q : List NoticeEntry} (hq : ∀ e ∈ q, e.wf) :
    ∀ e ∈ purgedNotices c own q, e.subject ≠ some own := by
  intro e he hsubject
  obtain ⟨hmem, hkept⟩ := List.mem_filter.mp he
  obtain ⟨hkind, -⟩ := hq e hmem
  have hpeer : e.kind = .peerChanged := hkind.mpr (by rw [hsubject]; rfl)
  simp [hpeer, hsubject] at hkept

theorem QueueInv.takeStart {s : State} (hs : QueueInv s) (straps : Straps) (fields : List Byte) :
    QueueInv (s.takeStart straps fields) := by
  obtain ⟨⟨hpeers, hround, -⟩, hkeys, hwf, -, hlen⟩ := hs
  have sub : (purgedNotices (startConfiguration fields) straps.number.toNat s.notices).Sublist s.notices :=
    List.filter_sublist
  rw [State.takeStart_frame]
  refine ⟨⟨hpeers, hround, fun _ => ⟨_, rfl, straps.number.isLt⟩⟩, hkeys.sublist (sub.map _),
    fun e he => hwf e (sub.subset he), fun n hn => ?_, Nat.le_trans sub.length_le hlen⟩
  cases hn
  exact purgedNotices_subject _ _ hwf

theorem QueueInv.takeProfile {s : State} (hs : QueueInv s) (fields : List Byte) : QueueInv (s.takeProfile fields) := by
  unfold State.takeProfile
  split
  · refine QueueInv.of_same (QueueInv.floorTest ?_) (SameQueue.refl _)
    exact hs.of_same (by simp [SameQueue])
  · exact hs.of_same (by simp [SameQueue])

theorem QueueInv.takeReading {s : State} (hs : QueueInv s) (fields : List Byte) : QueueInv (s.takeReading fields) := by
  unfold State.takeReading
  refine QueueInv.of_same (QueueInv.floorTest ?_) (SameQueue.refl _)
  refine QueueInv.of_same (QueueInv.deviationTest ?_ (readingOf fields).measured) (SameQueue.refl _)
  exact hs.of_same (by simp [SameQueue])

/-- The queue without its head (R175). -/
theorem QueueInv.takeHead {s : State} (hs : QueueInv s) : QueueInv s.takeHead := by
  cases hq : s.notices with
  | nil =>
    rw [State.takeHead_empty hq]
    exact hs.of_same (by simp [SameQueue])
  | cons e es =>
    obtain ⟨grounds, hkeys, hwf, hne, hlen⟩ := hs
    rw [hq] at hkeys hwf hne hlen
    rw [State.takeHead_cons hq]
    exact ⟨grounds, (List.nodup_cons.mp hkeys).2, (List.forall_mem_cons.mp hwf).2,
      fun n hn => (List.forall_mem_cons.mp (hne n hn)).2, Nat.le_of_succ_le hlen⟩

theorem QueueInv.handle {s : State} (hs : QueueInv s) (k : RequestKind) (straps : Straps) (fields : List Byte) :
    QueueInv (s.handle k straps fields) := by
  cases k with
  | start => exact hs.takeStart straps fields
  | profile => exact hs.takeProfile fields
  | reading => exact hs.takeReading fields
  | avail =>
    have moved := fun c => hs.of_same (State.setCauses_sameQueue c s)
    unfold State.handle
    dsimp only
    split
    · exact (moved { s.control.causes with withdrawn := false }).of_same (.refl _)
    · exact (moved { s.control.causes with withdrawn := true }).of_same (.refl _)
  | takeNotice => exact hs.takeHead
  | restart => exact hs.offlineWith _ _ (.inr rfl)
  | peer | status | leave => exact hs.of_same ⟨rfl, rfl, rfl, rfl, rfl⟩

theorem State.transact_keepsQueue (straps : Straps) (selector : Byte) (bytes : List Byte) :
    Keeps QueueInv (State.transact straps selector bytes) := by
  intro s _ hs
  have written : ∀ l i, QueueInv { s with link := l, freeIndex := i } := fun _ _ => hs.of_same (.refl s)
  unfold State.transact
  split
  · unfold State.writeTransaction State.takeWrite
    dsimp only
    repeat' split
    · exact hs
    · exact hs
    · exact (written _ _).handle _ straps _
    · exact hs
    · exact hs
  · exact hs.of_same (by simp [SameQueue])
  · exact hs.of_same (by simp [SameQueue])
  · exact hs

/-! ### Inputs and the reading lapse (R33, R34, R110) -/

theorem State.plugFell_sameQueue (s : State) : SameQueue s s.plugFell := by
  unfold State.plugFell
  split <;> simp [SameQueue]

theorem State.plugRose_sameQueue (s : State) : SameQueue s s.plugRose := by
  unfold State.plugRose
  split <;> simp [SameQueue]

theorem stopNotice_fits (active : Bool) (own : Option Nat) : (stopNotice active).Fits own :=
  Notice.fits_of_subjectless nofun rfl

theorem State.stopPressed_keepsQueue : Keeps QueueInv State.stopPressed := by
  intro s _ hs
  unfold State.stopPressed
  repeat' split
  · exact QueueInv.notice (hs.of_same (by simp [SameQueue])) (stopNotice_fits _ _)
  · exact hs.notice (stopNotice_fits _ _)
  · exact hs

theorem State.stopFreed_keepsQueue : Keeps QueueInv State.stopFreed := by
  intro s _ hs
  unfold State.stopFreed
  repeat' split
  · exact QueueInv.notice (hs.of_same (by simp [SameQueue])) (stopNotice_fits _ _)
  · exact hs.notice (stopNotice_fits _ _)
  · exact hs

theorem State.readingLapses_keepsQueue : Keeps QueueInv State.readingLapses := by
  intro s _ hs
  have reported : ∀ v, QueueInv (State.notice (numbered .readingLapsed v)
      { s with readiness := { s.readiness with lapseReported := true } }) :=
    fun v => QueueInv.notice (s := { s with readiness := { s.readiness with lapseReported := true } }) hs
      (numbered_fits (by decide) v _)
  unfold State.readingLapses
  repeat' split
  · exact ((reported _).of_same (State.setCauses_sameQueue _ _)).of_same (State.zeroExport_sameQueue _)
  · exact reported _
  all_goals exact hs

theorem State.periodStarts_sameQueue (s : State) : SameQueue s s.periodStarts := by
  obtain h | ⟨p, h⟩ := s.periodStarts_eq <;> rw [h] <;> exact ⟨rfl, rfl, rfl, rfl, rfl⟩

/-! ### Every step -/

/-- What each meaning keeps, meaning by meaning. -/
theorem queueInv_keptByEvents : KeptByEvents QueueInv where
  advance dt := .of_sameQueue fun s => by simp [SameQueue]
  settle _ hs := hs.of_same (by simp [SameQueue])
  queue _ _ _ hs := hs
  inputs _ _ _ hs := hs
  powerOn _ _ _ hs := hs.of_unnumbered (.inr rfl) rfl rfl rfl rfl
  transact := State.transact_keepsQueue
  transmissionEnds := State.transmissionEnds_keepsQueue
  lineWentIdle := .of_sameQueue State.lineWentIdle_sameQueue
  timerExpires := State.timerExpires_keepsQueue
  slotOpens idle := .of_sameQueue (State.slotOpens_sameQueue idle)
  allocationPoint := State.allocationPoint_keepsQueue
  runCompletes := State.runCompletes_keepsQueue
  frameStarts _ _ hs _ _ _ := hs
  frameBlocked s _ hs _ f _ :=
    QueueInv.leaveNotSent (s := { s with line := { s.line with transmitter := .silent } }) hs f
  frameSent _ _ hs _ f _ := hs.outcomeSent f
  frameCut _ _ hs _ f grantFirst _ := hs.outcomeCut f grantFirst
  markStopped _ _ hs _ _ := hs
  plugFell := .of_sameQueue State.plugFell_sameQueue
  plugRose := .of_sameQueue State.plugRose_sameQueue
  stopPressed := State.stopPressed_keepsQueue
  stopFreed := State.stopFreed_keepsQueue
  readingLapses := State.readingLapses_keepsQueue
  periodStarts := .of_sameQueue State.periodStarts_sameQueue

/-- Settles O58: every event keeps the queue with its grounds; the notices made fit the own number, and a queue of
notices that fit has at most 16 entries without a subject and 31 with one. -/
theorem stepsKeepTheQueue : Obligations.StepsKeepTheQueue := by
  unfold Obligations.StepsKeepTheQueue
  intro s t hs hp hq h
  obtain ⟨-, kept⟩ := queueInv_keptByEvents.step h hs (.of_wf hs hp hq)
  exact kept

end Sys2Proof.Machine
end

section
/-! A step and the command at the front of the queue (log entry 1; O1). -/

namespace Sys2Proof.Machine

/-- With a command at the front, a step is that command on the state with the rest of the queue. -/
theorem step_of_pending_cons {s : State} {c : Instr} {rest : List Instr} (hfront : s.pending = c :: rest) :
    step s = exec c { s with pending := rest } := by
  unfold step
  rw [hfront]

/-- Settles O1: the queue put in is the one the step reads, and the rest replaces it. -/
theorem stepTakesFrontCommand : Obligations.StepTakesFrontCommand := by
  unfold Obligations.StepTakesFrontCommand
  intro c rest s
  have hfront : ({ s with pending := c :: rest } : State).pending = c :: rest := rfl
  exact step_of_pending_cons hfront

end Sys2Proof.Machine
end

section
/-! What a station keeps of itself from step to step: its number, configuration and anchor, and the rule that its state
follows the hold causes (R20, R21, R31, R43; O56). -/

namespace Sys2Proof.Machine

/-! ### The invariant, and the steps that leave a station where it is -/

/-- A station well-formed, its state following its causes: the first part of what O56 says every step keeps. -/
def StationSound (s : State) : Prop := StationWf s ∧ CausesFollow s

/-- A step that leaves what START latched, goes neither on the line nor off it, and keeps the state following the
causes. -/
def StaysOnLine (s t : State) : Prop :=
  (t.control.number = s.control.number ∧ t.control.signalStrap = s.control.signalStrap ∧
    t.control.configuration = s.control.configuration) ∧
  (t.control.state = .offline ↔ s.control.state = .offline) ∧ (t.timer.anchor = none ↔ s.timer.anchor = none) ∧
  (t.plan = none ↔ s.plan = none) ∧ (t.line.receiver = .off ↔ s.line.receiver = .off) ∧
  (s.timer.roundCount < 65536 → t.timer.roundCount < 65536) ∧ (CausesFollow s → CausesFollow t)

theorem CausesFollow.of_control {s t : State} (hs : CausesFollow s) (h : t.control.state = s.control.state)
    (hc : t.control.causes = s.control.causes) : CausesFollow t := by
  unfold CausesFollow
  rw [h, hc]
  exact hs

theorem StaysOnLine.of_eq {s t : State} (hc : t.control = s.control) (ht : t.timer = s.timer) (hp : t.plan = s.plan)
    (hl : t.line = s.line) : StaysOnLine s t := by
  unfold StaysOnLine CausesFollow
  rw [hc, ht, hp, hl]
  exact ⟨⟨rfl, rfl, rfl⟩, .rfl, .rfl, .rfl, .rfl, id, id⟩

theorem StaysOnLine.refl (s : State) : StaysOnLine s s := .of_eq rfl rfl rfl rfl

theorem StaysOnLine.trans {s t u : State} (h : StaysOnLine s t) (h' : StaysOnLine t u) : StaysOnLine s u := by
  obtain ⟨⟨number, strap, configuration⟩, state, anchor, plan, receiver, round, causes⟩ := h
  obtain ⟨⟨number', strap', configuration'⟩, state', anchor', plan', receiver', round', causes'⟩ := h'
  exact ⟨⟨number'.trans number, strap'.trans strap, configuration'.trans configuration⟩, state'.trans state,
    anchor'.trans anchor, plan'.trans plan, receiver'.trans receiver, round' ∘ round, causes' ∘ causes⟩

theorem StaysOnLine.sound {s t : State} (h : StaysOnLine s t) (hs : StationSound s) : StationSound t := by
  obtain ⟨⟨number, strap, configuration⟩, state, anchor, plan, receiver, round, causes⟩ := h
  obtain ⟨⟨hoff, hon, hround⟩, hcauses⟩ := hs
  refine ⟨?_, causes hcauses⟩
  unfold StationWf
  rw [number, strap, configuration, state, anchor, plan, receiver, ne_eq t.control.state, state, ne_eq t.timer.anchor,
    anchor, ne_eq t.plan, plan, ne_eq t.line.receiver, receiver]
  exact ⟨hoff, hon, round hround⟩

/-- Keeping the invariant by leaving the station where it is. -/
theorem Keeps.of_staysOnLine {f : State → State} (h : ∀ s, StaysOnLine s (f s)) : Keeps StationSound f :=
  fun s _ hs => (h s).sound hs

/-- A part at its power-on values, but for what the invariant does not read. -/
theorem StationSound.of_reset {t : State} (h : StaysOnLine State.reset t) : StationSound t :=
  h.sound ⟨State.reset_stationWf, State.reset_causesFollow⟩

theorem State.offlineWith_sound (k : Byte) (fs : List Byte) (q : List NoticeEntry) (s : State) :
    StationSound (s.offlineWith k fs q) := .of_reset (.of_eq rfl rfl rfl rfl)

/-! ### The shared operations (R31, R29, R133) -/

/-- After a change of causes MEMBER and HOLDING are as the causes say; no other state is entered or left. -/
theorem followCauses_iff (st : StationState) (c : HoldCauses) :
    (followCauses st c = .member ↔ st.joined = true ∧ c = .empty) ∧
    (followCauses st c = .holding ↔ st.joined = true ∧ c ≠ .empty) ∧
    (followCauses st c = .offline ↔ st = .offline) := by
  cases st with
  | member | holding => by_cases hc : c = .empty <;> simp [followCauses, HoldCauses.isEmpty, StationState.joined, hc]
  | offline | joining | leaving | faulted => simp [followCauses, StationState.joined]

theorem State.setCauses_staysOnLine (c : HoldCauses) {s : State} (hon : s.control.state ≠ .offline) :
    StaysOnLine s (s.setCauses c) := by
  by_cases hc : c = s.control.causes
  · rw [State.setCauses, if_pos hc]
    exact .refl s
  · obtain ⟨member, holding, offline⟩ := followCauses_iff s.control.state c
    have state : (s.setCauses c).control.state = followCauses s.control.state c := by
      rw [State.setCauses_control_eq]
      exact if_neg hc
    obtain ⟨causes, number, strap, configuration, -⟩ := State.setCauses_control c s
    have follows : CausesFollow (s.setCauses c) := by
      unfold CausesFollow
      rw [state, causes, member, holding, offline]
      exact ⟨And.right, And.right, fun h => absurd h hon⟩
    exact ⟨⟨number, strap, configuration⟩, by rw [state, offline], by simp, by simp, by simp, by simp, fun _ => follows⟩

theorem State.notice_staysOnLine (n : Notice) (s : State) : StaysOnLine s (s.notice n) :=
  .of_eq (by simp) (by simp) (by simp) (by simp)

theorem State.noticeAll_staysOnLine (ns : List Notice) (s : State) : StaysOnLine s (s.noticeAll ns) :=
  .of_eq (by simp) (by simp) (by simp) (by simp)

theorem State.zeroExport_staysOnLine (s : State) : StaysOnLine s s.zeroExport := .of_eq rfl rfl rfl rfl

theorem State.abortRun_staysOnLine (s : State) : StaysOnLine s s.abortRun := by
  unfold State.abortRun
  split
  · exact StaysOnLine.trans ⟨⟨rfl, rfl, rfl⟩, .rfl, .rfl, .rfl, .rfl, id, id⟩ (State.notice_staysOnLine _ _)
  · exact .refl s

/-- Stopping what is sent leaves the receiver (R20). -/
theorem LineInterface.frameStopped_receiver (l : LineInterface) (now : Instant) :
    (l.frameStopped now).receiver = l.receiver := by
  unfold LineInterface.frameStopped
  split <;> simp

theorem State.enterFaulted_staysOnLine (e : Evidence) (grantFirst : Bool) {s : State}
    (hon : s.control.state ≠ .offline) : StaysOnLine s (s.enterFaulted e grantFirst) := by
  have control : (s.enterFaulted e grantFirst).control =
      { s.control with state := .faulted, withdrawalPending := false, isolated := false } := by
    simp [State.enterFaulted]
  have receiver : (s.enterFaulted e grantFirst).line.receiver = s.line.receiver := by
    simp [State.enterFaulted, LineInterface.frameStopped_receiver]
  unfold StaysOnLine CausesFollow
  rw [control, receiver]
  exact ⟨⟨rfl, rfl, rfl⟩, ⟨nofun, fun h => absurd h hon⟩, by simp, by simp, .rfl, by simp,
    fun _ => ⟨nofun, nofun, nofun⟩⟩

theorem StationState.watches_on {st : StationState} (h : st.watches = true) : st ≠ .offline := by
  rintro rfl
  cases h

theorem StationState.joined_on {st : StationState} (h : st.joined = true) : st ≠ .offline := by
  rintro rfl
  cases h

/-! ### Rounds (R13, R14, R26, R131) -/

/-- A round opens where an anchor was held. -/
theorem State.openRound_staysOnLine (anchor : Instant) {s : State} {a : Instant} (ha : s.timer.anchor = some a) :
    StaysOnLine s (s.openRound anchor) := by
  have timer := State.openRound_timer anchor s
  refine ⟨by simp, by simp, by simp [timer, ha], by simp, by simp, fun _ => ?_,
    fun h => h.of_control (by simp) (by simp)⟩
  rw [timer]
  exact Nat.mod_lt _ (by decide)

theorem State.sendMark_staysOnLine (at_ : Instant) (idle : Bool) (s : State) : StaysOnLine s (s.sendMark at_ idle) := by
  unfold State.sendMark
  split
  · exact ⟨⟨rfl, rfl, rfl⟩, .rfl, .rfl, .rfl, by simp, id, id⟩
  · exact .refl s

theorem State.timerExpires_staysOnLine (idle : Bool) (s : State) : StaysOnLine s (s.timerExpires idle) := by
  unfold State.timerExpires
  split
  · rename_i a ha
    dsimp only
    split
    · exact (State.openRound_staysOnLine _ ha).trans (State.sendMark_staysOnLine _ idle _)
    · exact .refl s
  · exact .refl s

theorem State.handFrame_staysOnLine (a opening : Instant) (st : AnnouncedState) (idle : Bool) (s : State) :
    StaysOnLine s (s.handFrame a opening st idle) :=
  ⟨⟨rfl, rfl, rfl⟩, .rfl, .rfl, Option.map_eq_none_iff, by simp [State.handFrame], id, id⟩

theorem State.slotOpens_staysOnLine (idle : Bool) (s : State) : StaysOnLine s (s.slotOpens idle) := by
  unfold State.slotOpens
  dsimp only
  repeat' split
  · exact State.handFrame_staysOnLine _ _ _ idle s.slotRaised
  all_goals exact .refl s

theorem State.judgeIsolation_staysOnLine (s : State) : StaysOnLine s s.judgeIsolation.1 := by
  obtain ⟨control, -⟩ := State.judgeIsolation_control s
  exact ⟨by simp [control], by simp [control], by simp, by simp, by simp, by simp,
    fun h => h.of_control (by simp [control]) (by simp [control])⟩

theorem State.freezeView_staysOnLine (s : State) : StaysOnLine s s.freezeView.1 := by
  unfold State.freezeView
  repeat' split
  all_goals exact ⟨⟨rfl, rfl, rfl⟩, .rfl, .rfl, .rfl, .rfl, id, id⟩

/-- The station joins as MEMBER without a cause and as HOLDING with one (R26, R31). -/
theorem State.joinIfDue_staysOnLine (s : State) : StaysOnLine s s.joinIfDue := by
  unfold State.joinIfDue
  split
  · rename_i h
    obtain ⟨joining, -⟩ := h
    unfold StaysOnLine CausesFollow
    simp only [State.completeInFlight_keeps, joining, HoldCauses.isEmpty]
    by_cases hc : s.control.causes = .empty <;> simp [hc]
  · exact .refl s

theorem State.allocate_staysOnLine (order : Arrival) (s : State) : StaysOnLine s (s.allocate order) := by
  have judged : ∀ t : State, StaysOnLine s t →
      StaysOnLine s t.judgeIsolation.1.offerAtAllocation.1.freezeView.1.joinIfDue := fun t ht =>
    (((ht.trans (State.judgeIsolation_staysOnLine t)).trans (.of_eq (by simp) (by simp) (by simp) (by simp))).trans
      (State.freezeView_staysOnLine _)).trans (State.joinIfDue_staysOnLine _)
  unfold State.allocate
  refine StaysOnLine.trans (judged _ ?_) (State.noticeAll_staysOnLine _ _)
  exact ⟨⟨rfl, rfl, rfl⟩, .rfl, .rfl, .rfl, .rfl, id, id⟩

theorem State.allocationPoint_staysOnLine (order : Arrival) (s : State) : StaysOnLine s (s.allocationPoint order) := by
  unfold State.allocationPoint
  repeat' split
  · exact State.allocate_staysOnLine order s
  all_goals exact .refl s

theorem State.runCompletes_staysOnLine (s : State) : StaysOnLine s s.runCompletes := by
  unfold State.runCompletes
  repeat' split
  · rw [State.completeRun_eq]
    exact ⟨⟨rfl, rfl, rfl⟩, .rfl, .rfl, .rfl, .rfl, id, id⟩
  all_goals exact .refl s

/-! ### Frames heard (R8, R15 to R18, R27) -/

theorem State.heardMark_staysOnLine (start : Instant) (s : State) : StaysOnLine s (s.heardMark start) := by
  unfold State.heardMark
  split
  · rename_i a ha
    have aborted := State.abortRun_staysOnLine s
    split
    · obtain ⟨b, hb⟩ := Option.ne_none_iff_exists'.mp fun h => nomatch ha.symm.trans (aborted.2.2.1.mp h)
      have fixed : StaysOnLine s { s.abortRun with timer := { s.abortRun.timer with fixed := true } } :=
        aborted.trans ⟨⟨rfl, rfl, rfl⟩, .rfl, .rfl, .rfl, .rfl, id, id⟩
      exact fixed.trans (State.openRound_staysOnLine start hb)
    · split
      · exact State.openRound_staysOnLine start ha
      · exact ⟨⟨rfl, rfl, rfl⟩, .rfl, .rfl, .rfl, .rfl, id, id⟩
  · exact .refl s

/-- The anchor moves where one was held. -/
theorem State.reanchor_staysOnLine (anchor : Instant) {s : State} {a : Instant} (ha : s.timer.anchor = some a) :
    StaysOnLine s (s.reanchor anchor) := by
  obtain ⟨latched, state, -, plan, receiver, round, causes⟩ := State.abortRun_staysOnLine s
  refine ⟨latched, state, ?_, plan, receiver, round, causes⟩
  rw [ha]
  exact ⟨nofun, nofun⟩

theorem State.storeFrame_staysOnLine (f : Frame) (s : State) : StaysOnLine s (s.storeFrame f) :=
  .of_eq (by simp) (by simp) (by simp) (by simp)

theorem State.judgeClock_staysOnLine (f : Frame) (s : State) : StaysOnLine s (s.judgeClock f) :=
  .of_eq (by simp) (by simp) (by simp) (by simp)

theorem State.countCorrupt_staysOnLine (s : State) : StaysOnLine s s.countCorrupt :=
  ⟨⟨rfl, rfl, rfl⟩, .rfl, .rfl, .rfl, .rfl, id, id⟩

theorem State.deliverPeer_staysOnLine (f : Frame) (start : Instant) (s : State) :
    StaysOnLine s (s.deliverPeer f start) := by
  have stored : ∀ t, StaysOnLine s t → StaysOnLine s ((t.storeFrame f).judgeClock f) := fun t ht =>
    (ht.trans (State.storeFrame_staysOnLine f t)).trans (State.judgeClock_staysOnLine f _)
  unfold State.deliverPeer
  split
  · rename_i a ha
    dsimp only
    repeat' split
    · exact stored s (.refl s)
    · exact stored _ (State.reanchor_staysOnLine _ ha)
    · exact (State.countCorrupt_staysOnLine s).trans (State.storeFrame_staysOnLine f _)
  · exact .refl s

theorem State.deliver_staysOnLine (f : Frame) (start : Instant) (grantFirst : Bool) (s : State) :
    StaysOnLine s (s.deliver f start grantFirst) := by
  unfold State.deliver State.duplicateHeard
  repeat' split
  · exact State.enterFaulted_staysOnLine _ _ (StationState.watches_on ‹_›)
  · exact .refl s
  · exact State.deliverPeer_staysOnLine f start s

theorem State.transmissionEnds_staysOnLine (r : Reception) (grantFirst : Bool) (s : State) :
    StaysOnLine s (s.transmissionEnds r grantFirst) := by
  unfold State.transmissionEnds State.hear
  dsimp only
  repeat' split
  · exact State.heardMark_staysOnLine _ s
  · exact .refl s
  · exact State.countCorrupt_staysOnLine s
  · exact State.deliver_staysOnLine _ _ grantFirst s
  · exact State.countCorrupt_staysOnLine s
  · exact .refl s

/-! ### Own frames (R12, R28, R37, R39, R40) -/

/-- A change of the line that leaves the receiver. -/
theorem StationSound.of_receiver {s t : State} (hs : StationSound s) (hc : t.control = s.control)
    (ht : t.timer = s.timer) (hp : t.plan = s.plan) (hl : t.line.receiver = s.line.receiver) : StationSound t := by
  unfold StationSound StationWf CausesFollow
  rw [hc, ht, hp, hl]
  exact hs

theorem State.leaveNotSent_sound (f : Frame) {s : State} (hs : StationSound s) : StationSound (s.leaveNotSent f) := by
  unfold State.leaveNotSent
  split
  · exact State.offlineWith_sound _ _ _ s
  · exact hs

theorem State.withdrawalSent_staysOnLine (f : Frame) (s : State) : StaysOnLine s (s.withdrawalSent f) := by
  unfold State.withdrawalSent
  split
  · exact StaysOnLine.trans (t := { s with control := { s.control with withdrawalPending := false } })
      ⟨⟨rfl, rfl, rfl⟩, .rfl, .rfl, .rfl, .rfl, id, id⟩ (.of_eq (by simp) (by simp) (by simp) (by simp))
  · exact .refl s

theorem State.outcomeSent_sound (f : Frame) {s : State} (hs : StationSound s) : StationSound (s.outcomeSent f) := by
  unfold State.outcomeSent
  dsimp only
  split
  · exact State.offlineWith_sound _ _ _ _
  · exact (State.withdrawalSent_staysOnLine f _).sound (hs.of_receiver rfl rfl rfl (by simp))

theorem State.outcomeCut_sound (f : Frame) (grantFirst : Bool) {s : State} (hs : StationSound s) :
    StationSound (s.outcomeCut f grantFirst) := by
  have stopped : ∀ k, StationSound { s with line := { s.line.stopped s.now with readbackFailures := k } } := fun k =>
    hs.of_receiver rfl rfl rfl (by simp)
  unfold State.outcomeCut
  dsimp only
  split
  · rename_i h
    obtain ⟨-, watches⟩ := h
    exact StaysOnLine.sound (State.enterFaulted_staysOnLine _ _ (StationState.watches_on watches)) (stopped _)
  · exact State.leaveNotSent_sound f (stopped _)

/-! ### The post link (R23, R36, R38, R42, R100, R101) -/

/-- The parts of a configuration that the figures rest on, from the checks of a START (R161). -/
theorem startConfiguration_inRange {fs : List Byte} (h : firstBad (startChecks fs) = none) :
    (startConfiguration fs).inRange := by
  have pass : ∀ lo n hi, within lo n hi ∈ startChecks fs → lo ≤ n ∧ n ≤ hi := fun lo n hi hmem =>
    of_decide_eq_true ((firstBad_eq_none _).mp h _ hmem)
  obtain ⟨limit_lo, limit_hi⟩ := pass 1 (fieldWord fs 0) 2000 (by simp [startChecks])
  obtain ⟨rating_lo, rating_hi⟩ := pass 1 (fieldByte fs 2) 150 (by simp [startChecks])
  obtain ⟨ramp_lo, ramp_hi⟩ := pass 1 (fieldByte fs 3) 50 (by simp [startChecks])
  obtain ⟨down_lo, down_hi⟩ := pass 1 (fieldByte fs 29) 60 (by simp [startChecks])
  exact ⟨limit_lo, limit_hi, rating_lo, rating_hi, ramp_lo, ramp_hi, down_lo, down_hi⟩

theorem State.takeStart_sound (straps : Straps) {fields : List Byte} (hf : firstBad (startChecks fields) = none)
    {s : State} (hs : StationWf s) : StationSound (s.takeStart straps fields) := by
  obtain ⟨-, -, round⟩ := hs
  rw [State.takeStart_frame]
  exact ⟨⟨nofun, fun _ => ⟨⟨_, rfl, straps.number.isLt⟩, nofun, ⟨_, rfl, startConfiguration_inRange hf⟩, nofun, nofun,
    nofun⟩, round⟩, nofun, nofun, nofun⟩

theorem State.takeProfile_staysOnLine (fields : List Byte) {s : State} (hon : s.control.state ≠ .offline) :
    StaysOnLine s (s.takeProfile fields) := by
  unfold State.takeProfile
  split
  · exact StaysOnLine.trans (State.setCauses_staysOnLine { s.control.causes with noProfile := false }
      (s := { s with readiness := { s.readiness with profile := some (profileOf fields) } }) hon)
      (.of_eq (by simp) (by simp) (by simp) (by simp))
  · exact .of_eq rfl rfl rfl rfl

theorem State.takeReading_staysOnLine (fields : List Byte) {s : State} (hon : s.control.state ≠ .offline) :
    StaysOnLine s (s.takeReading fields) := by
  unfold State.takeReading
  exact StaysOnLine.trans (State.setCauses_staysOnLine { s.control.causes with noReading := false, lapse := false }
    (s := { s with readiness := { s.readiness with reading := some (readingOf fields), lapseReported := false } }) hon)
    (.of_eq (by simp) (by simp) (by simp) (by simp))

theorem State.takeLeave_staysOnLine {s : State} (hjoined : s.control.state.joined = true) :
    StaysOnLine s s.takeLeave :=
  ⟨⟨rfl, rfl, rfl⟩, ⟨nofun, fun h => absurd h (StationState.joined_on hjoined)⟩, .rfl, .rfl, .rfl, id,
    fun _ => ⟨nofun, nofun, nofun⟩⟩

theorem State.handle_sound {k : RequestKind} (straps : Straps) {fields : List Byte} {s : State}
    (hk : kindAllowed k s.control.state = true) (hf : firstBad (fieldChecks k fields) = none) (hs : StationSound s) :
    StationSound (s.handle k straps fields) := by
  cases k with
  | start => exact State.takeStart_sound straps hf hs.1
  | profile => exact (State.takeProfile_staysOnLine fields (StationState.joined_on hk)).sound hs
  | reading => exact (State.takeReading_staysOnLine fields (StationState.joined_on hk)).sound hs
  | avail =>
    have moved := fun c => State.setCauses_staysOnLine c (StationState.joined_on hk)
    unfold State.handle
    dsimp only
    split
    · exact ((moved _).trans (.of_eq rfl rfl rfl rfl)).sound hs
    · exact ((moved _).trans ⟨⟨rfl, rfl, rfl⟩, .rfl, .rfl, .rfl, .rfl, id, id⟩).sound hs
  | takeNotice =>
    show StationSound s.takeHead
    unfold State.takeHead
    split <;> exact hs
  | leave => exact (State.takeLeave_staysOnLine hk).sound hs
  | restart => exact State.offlineWith_sound _ _ _ s
  | peer | status => exact hs

theorem State.transact_keepsStation (straps : Straps) (selector : Byte) (bytes : List Byte) :
    Keeps StationSound (State.transact straps selector bytes) := by
  intro s _ hs
  unfold State.transact
  split
  · unfold State.writeTransaction State.takeWrite
    dsimp only
    repeat' split
    · exact hs
    · exact hs
    · rename_i hpass
      obtain ⟨-, -, -, hallowed, hfields⟩ := checkRequest_pass hpass
      exact State.handle_sound straps (s := State.openRequest _ _ _ (State.sendsOpen [] _ s)) hallowed hfields hs
    · exact hs
    · exact hs
  · exact StaysOnLine.sound (.of_eq (by simp) (by simp) (by simp) (by simp)) hs
  · exact StaysOnLine.sound (.of_eq (by simp) (by simp) (by simp) (by simp)) hs
  · exact hs

/-! ### Inputs and the reading lapse (R33, R34, R110) -/

theorem State.plugFell_staysOnLine (s : State) : StaysOnLine s s.plugFell := by
  unfold State.plugFell
  split
  · exact StaysOnLine.trans (State.setCauses_staysOnLine { s.control.causes with noBus := true }
      (s := { s with readiness := s.readiness.discarded }) (StationState.watches_on ‹_›)) (.of_eq rfl rfl rfl rfl)
  · exact .refl s

theorem State.plugRose_staysOnLine (s : State) : StaysOnLine s s.plugRose := by
  unfold State.plugRose
  split
  · exact (State.setCauses_staysOnLine _ (StationState.watches_on ‹_›)).trans (State.zeroExport_staysOnLine _)
  · exact .refl s

theorem State.stopPressed_staysOnLine (s : State) : StaysOnLine s s.stopPressed := by
  unfold State.stopPressed
  repeat' split
  · exact ((State.setCauses_staysOnLine _ (StationState.watches_on ‹_›)).trans (State.zeroExport_staysOnLine _)).trans
      (State.notice_staysOnLine _ _)
  · exact State.notice_staysOnLine _ s
  · exact .refl s

theorem State.stopFreed_staysOnLine (s : State) : StaysOnLine s s.stopFreed := by
  unfold State.stopFreed
  repeat' split
  · exact (State.setCauses_staysOnLine _ (StationState.watches_on ‹_›)).trans (State.notice_staysOnLine _ _)
  · exact State.notice_staysOnLine _ s
  · exact .refl s

theorem State.readingLapses_staysOnLine (s : State) : StaysOnLine s s.readingLapses := by
  have reported : ∀ n, StaysOnLine s
      (State.notice n { s with readiness := { s.readiness with lapseReported := true } }) :=
    fun n => .of_eq (by simp) (by simp) (by simp) (by simp)
  unfold State.readingLapses
  repeat' split
  · rename_i hwatches
    refine ((reported _).trans (State.setCauses_staysOnLine _ ?_)).trans (State.zeroExport_staysOnLine _)
    simpa using StationState.watches_on hwatches
  · exact reported _
  all_goals exact .refl s

theorem State.lineWentIdle_staysOnLine (s : State) : StaysOnLine s s.lineWentIdle := by
  unfold State.lineWentIdle
  split
  · rename_i h
    exact ⟨⟨rfl, rfl, rfl⟩, .rfl, .rfl, .rfl, by simp [h], id, id⟩
  all_goals exact .refl s

theorem State.periodStarts_staysOnLine (s : State) : StaysOnLine s s.periodStarts := by
  obtain h | ⟨p, h⟩ := s.periodStarts_eq <;> rw [h] <;> exact .of_eq rfl rfl rfl rfl

/-! ### Every event -/

/-- What each meaning keeps, meaning by meaning. -/
theorem stationSound_keptByEvents : KeptByEvents StationSound where
  advance dt := .of_staysOnLine fun s => .of_eq (by simp) (by simp) (by simp) (by simp)
  settle _ hs := hs
  queue _ _ _ hs := hs
  inputs _ _ _ hs := hs
  powerOn _ _ _ _ := .of_reset (.of_eq rfl rfl rfl rfl)
  transact := State.transact_keepsStation
  transmissionEnds r grantFirst := .of_staysOnLine (State.transmissionEnds_staysOnLine r grantFirst)
  lineWentIdle := .of_staysOnLine State.lineWentIdle_staysOnLine
  timerExpires idle := .of_staysOnLine (State.timerExpires_staysOnLine idle)
  slotOpens idle := .of_staysOnLine (State.slotOpens_staysOnLine idle)
  allocationPoint order := .of_staysOnLine (State.allocationPoint_staysOnLine order)
  runCompletes := .of_staysOnLine State.runCompletes_staysOnLine
  frameStarts _ _ hs _ _ _ := hs
  frameBlocked _ _ hs _ f _ := State.leaveNotSent_sound f hs
  frameSent _ _ hs _ f _ := State.outcomeSent_sound f hs
  frameCut _ _ hs _ f grantFirst _ := State.outcomeCut_sound f grantFirst hs
  markStopped _ _ hs _ _ := hs.of_receiver rfl rfl rfl (by simp)
  plugFell := .of_staysOnLine State.plugFell_staysOnLine
  plugRose := .of_staysOnLine State.plugRose_staysOnLine
  stopPressed := .of_staysOnLine State.stopPressed_staysOnLine
  stopFreed := .of_staysOnLine State.stopFreed_staysOnLine
  readingLapses := .of_staysOnLine State.readingLapses_staysOnLine
  periodStarts := .of_staysOnLine State.periodStarts_staysOnLine

end Sys2Proof.Machine
end

section
/-! The bound on what is exported: 0 outside MEMBER, never above the own grant, and the outputs follow it (R142, R143,
R145 to R148; O56). -/

namespace Sys2Proof.Machine

/-! ### What makes the setpoint safe, and what leaves it so -/

/-- A setpoint at a value within the grant, and at 0 outside MEMBER, brings the outputs with it. -/
theorem ExportSafe.of_at {t : State} {u : SetpointUnit} {a : Nat}
    (h : t.setpoint = u.at_ a t.control.configuration t.readiness) (hgrant : a ≤ t.grant.ownGrant)
    (hmember : t.control.state ≠ .member → a = 0) : ExportSafe t := by
  unfold ExportSafe
  rw [h]
  exact ⟨hmember, hgrant, rfl, rfl, Nat.min_le_right _ _, rfl⟩

/-- A setpoint just zeroed is safe, whatever came before (R143). -/
theorem ExportSafe.of_zeroed {t : State} {u : SetpointUnit}
    (h : t.setpoint = u.at_ 0 t.control.configuration t.readiness) : ExportSafe t :=
  .of_at h (Nat.zero_le _) fun _ => rfl

theorem State.zeroExport_exportSafe (s : State) : ExportSafe s.zeroExport := .of_zeroed (u := s.setpoint) rfl

/-- The announced figure set anew, and MEMBER not left: all else of the setpoint as it was. -/
theorem ExportSafe.of_announced {s t : State} (hs : ExportSafe s)
    (h : t.setpoint = { s.setpoint with announced := announcedFor t.readiness s.setpoint.applied })
    (hc : t.control.configuration = s.control.configuration) (hg : t.grant.ownGrant = s.grant.ownGrant)
    (hm : s.control.state = .member → t.control.state = .member) : ExportSafe t := by
  obtain ⟨member, grant, permit, duty, line, -⟩ := hs
  unfold ExportSafe
  rw [h, hc, hg]
  exact ⟨fun ht => member (mt hm ht), grant, permit, duty, line, rfl⟩

/-- A step that moves nothing the bound rests on; it may enter MEMBER. -/
def MovesNoExport (s t : State) : Prop :=
  t.setpoint = s.setpoint ∧ (∀ a, announcedFor t.readiness a = announcedFor s.readiness a) ∧
  t.control.configuration = s.control.configuration ∧ t.grant.ownGrant = s.grant.ownGrant ∧
  (s.control.state = .member → t.control.state = .member)

theorem MovesNoExport.safe {s t : State} (h : MovesNoExport s t) (hs : ExportSafe s) : ExportSafe t := by
  obtain ⟨setpoint, announced, configuration, grant, member⟩ := h
  obtain ⟨-, -, -, -, -, follows⟩ := id hs
  refine hs.of_announced ?_ configuration grant member
  rw [announced, ← follows, setpoint]

theorem MovesNoExport.of_eq {s t : State} (hs : t.setpoint = s.setpoint) (hr : t.readiness = s.readiness)
    (hc : t.control = s.control) (hg : t.grant = s.grant) : MovesNoExport s t := by
  unfold MovesNoExport
  rw [hs, hr, hc, hg]
  exact ⟨rfl, fun _ => rfl, rfl, rfl, id⟩

theorem MovesNoExport.refl (s : State) : MovesNoExport s s := .of_eq rfl rfl rfl rfl

theorem MovesNoExport.trans {s t u : State} (h : MovesNoExport s t) (h' : MovesNoExport t u) : MovesNoExport s u := by
  obtain ⟨setpoint, announced, configuration, grant, member⟩ := h
  obtain ⟨setpoint', announced', configuration', grant', member'⟩ := h'
  exact ⟨setpoint'.trans setpoint, fun a => (announced' a).trans (announced a), configuration'.trans configuration,
    grant'.trans grant, member' ∘ member⟩

/-- A part at its power-on values, but for what the bound does not read. -/
theorem State.offlineWith_exportSafe (k : Byte) (fs : List Byte) (q : List NoticeEntry) (s : State) :
    ExportSafe (s.offlineWith k fs q) := MovesNoExport.safe (.of_eq rfl rfl rfl rfl) State.reset_exportSafe

/-! ### The shared operations (R31, R103, R108, R111) -/

theorem State.notice_movesNoExport (n : Notice) (s : State) : MovesNoExport s (s.notice n) :=
  .of_eq (by simp) (by simp) (by simp) (by simp)

theorem State.noticeAll_movesNoExport (ns : List Notice) (s : State) : MovesNoExport s (s.noticeAll ns) :=
  .of_eq (by simp) (by simp) (by simp) (by simp)

theorem State.complete_movesNoExport (k : Byte) (r : ResultCode) (fs : List Byte) (s : State) :
    MovesNoExport s (s.complete k r fs) := .of_eq rfl rfl rfl rfl

theorem State.computeOffer_movesNoExport (s : State) : MovesNoExport s s.computeOffer :=
  ⟨rfl, fun _ => rfl, rfl, rfl, id⟩

/-- A change that adds no cause where there is none does not bring a station out of MEMBER (R31). -/
theorem State.setCauses_member {c : HoldCauses} {s : State} (hs : CausesFollow s)
    (hc : s.control.causes = .empty → c = .empty) (hm : s.control.state = .member) :
    (s.setCauses c).control.state = .member := by
  obtain ⟨member, -⟩ := hs
  have causes := member hm
  rw [State.setCauses, if_pos ((hc causes).trans causes.symm), hm]

theorem State.setCauses_movesNoExport {c : HoldCauses} {s : State} (hs : CausesFollow s)
    (hc : s.control.causes = .empty → c = .empty) : MovesNoExport s (s.setCauses c) := by
  refine ⟨by simp, fun a => ?_, by simp, by simp, State.setCauses_member hs hc⟩
  rw [State.setCauses_readiness_eq]
  split <;> rfl

theorem State.floorTest_exportSafe {s : State} (hs : ExportSafe s) : ExportSafe s.floorTest := by
  rw [State.floorTest_eq]
  split
  · exact (State.notice_movesNoExport _ _).safe (ExportSafe.of_zeroed (u := s.setpoint) rfl)
  · exact hs

theorem State.abortRun_movesNoExport (s : State) : MovesNoExport s s.abortRun := by
  unfold State.abortRun
  split
  · exact MovesNoExport.trans ⟨rfl, fun _ => rfl, rfl, rfl, id⟩ (State.notice_movesNoExport _ _)
  · exact .refl s

theorem State.enterFaulted_exportSafe (e : Evidence) (grantFirst : Bool) (s : State) :
    ExportSafe (s.enterFaulted e grantFirst) := by
  unfold State.enterFaulted
  exact (State.noticeAll_movesNoExport _ _).safe (State.zeroExport_exportSafe _)

/-! ### Rounds (R14, R26, R108, R131, R136, R140, R141) -/

/-- The second miss zeroes what is applied with the grant (R136). -/
theorem State.reportRound_exportSafe {s : State} (hs : ExportSafe s) : ExportSafe s.reportRound := by
  by_cases h : s.missedRun = true
  · by_cases h1 : s.timer.runMisses = 1
    · rw [State.reportRound_zeroed h h1]
      exact .of_zeroed rfl
    · rw [State.reportRound_counted h h1]
      exact hs
  · rw [State.reportRound_kept h]
    exact hs

theorem State.openRound_exportSafe (anchor : Instant) {s : State} (hs : ExportSafe s) :
    ExportSafe (s.openRound anchor) := by
  have opened : ExportSafe (s.opened anchor) := hs
  rw [State.openRound_eq]
  exact MovesNoExport.safe (.of_eq (by simp) (by simp) (by simp) (by simp)) (State.reportRound_exportSafe opened)

theorem State.sendMark_movesNoExport (at_ : Instant) (idle : Bool) (s : State) :
    MovesNoExport s (s.sendMark at_ idle) :=
  .of_eq (by simp) (by simp) (by simp) (by simp)

theorem State.timerExpires_exportSafe (idle : Bool) {s : State} (hs : ExportSafe s) :
    ExportSafe (s.timerExpires idle) := by
  unfold State.timerExpires
  split
  · dsimp only
    split
    · exact (State.sendMark_movesNoExport _ idle _).safe (State.openRound_exportSafe _ hs)
    · exact hs
  · exact hs

theorem State.slotOpens_movesNoExport (idle : Bool) (s : State) : MovesNoExport s (s.slotOpens idle) := by
  unfold State.slotOpens
  dsimp only
  repeat' split
  all_goals exact ⟨rfl, fun _ => rfl, rfl, rfl, id⟩

theorem State.judgeIsolation_movesNoExport (s : State) : MovesNoExport s s.judgeIsolation.1 := by
  obtain ⟨control, -⟩ := State.judgeIsolation_control s
  exact ⟨by simp, by simp, by simp [control], by simp, by simp [control]⟩

theorem State.offerAtAllocation_exportSafe {s : State} (hs : ExportSafe s) : ExportSafe s.offerAtAllocation.1 := by
  rw [(State.offerAtAllocation_eq s).1]
  by_cases h : (s.readiness.computed s.control.causes s.control.configuration).offerEnergy = 0 ∧ 0 < s.setpoint.applied
  · simp only [h]
    exact .of_zeroed rfl
  · simp only [h, decide_false, Bool.false_eq_true, if_false]
    exact MovesNoExport.safe ⟨rfl, fun _ => rfl, rfl, rfl, id⟩ hs

theorem State.freezeView_movesNoExport (s : State) : MovesNoExport s s.freezeView.1 := by
  unfold State.freezeView
  repeat' split
  all_goals exact ⟨rfl, fun _ => rfl, rfl, rfl, id⟩

/-- The station that joins was in JOINING, where nothing is exported (R26). -/
theorem State.joinIfDue_movesNoExport (s : State) : MovesNoExport s s.joinIfDue := by
  refine ⟨by simp, by simp, by rw [State.joinIfDue_control], by simp, fun hm => ?_⟩
  unfold State.joinIfDue
  rw [if_neg (by simp [hm])]
  exact hm

theorem State.allocate_exportSafe (order : Arrival) {s : State} (hs : ExportSafe s) :
    ExportSafe (s.allocate order) := by
  have judged : ∀ t : State, MovesNoExport s t →
      ExportSafe t.judgeIsolation.1.offerAtAllocation.1.freezeView.1.joinIfDue := fun t ht =>
    ((State.freezeView_movesNoExport _).trans (State.joinIfDue_movesNoExport _)).safe
      (State.offerAtAllocation_exportSafe ((ht.trans (State.judgeIsolation_movesNoExport t)).safe hs))
  unfold State.allocate
  refine (State.noticeAll_movesNoExport _ _).safe (judged _ ?_)
  exact ⟨rfl, fun _ => rfl, rfl, rfl, id⟩

theorem State.allocationPoint_exportSafe (order : Arrival) {s : State} (hs : ExportSafe s) :
    ExportSafe (s.allocationPoint order) := by
  unfold State.allocationPoint
  repeat' split
  · exact State.allocate_exportSafe order hs
  all_goals exact hs

/-- A completion exports no more than it grants (R140, R141). -/
theorem State.exportTarget_le (g : Nat) (s : State) : s.exportTarget g ≤ g := by
  unfold State.exportTarget
  repeat' split
  · exact Nat.zero_le _
  · exact Nat.le_refl _
  · exact Nat.min_le_left _ _
  · exact Nat.zero_le _

theorem State.exportTarget_elsewhere (g : Nat) {s : State} (h : s.control.state ≠ .member) : s.exportTarget g = 0 := by
  unfold State.exportTarget
  split
  · exact absurd ‹_› h
  · rfl

theorem State.completeRun_exportSafe (v : RoundView) (s : State) : ExportSafe (s.completeRun v) := by
  rw [State.completeRun_eq]
  refine .of_at rfl (State.exportTarget_le _ _) fun h => State.exportTarget_elsewhere _ ?_
  simpa using h

theorem State.runCompletes_exportSafe {s : State} (hs : ExportSafe s) : ExportSafe s.runCompletes := by
  unfold State.runCompletes
  repeat' split
  · exact State.completeRun_exportSafe _ s
  all_goals exact hs

/-! ### Frames heard and own frames (R8, R15 to R18, R27, R28, R37, R40) -/

theorem State.heardMark_exportSafe (start : Instant) {s : State} (hs : ExportSafe s) :
    ExportSafe (s.heardMark start) := by
  unfold State.heardMark
  repeat' split
  · refine State.openRound_exportSafe start ?_
    exact (State.abortRun_movesNoExport s).safe hs
  · exact State.openRound_exportSafe start hs
  all_goals exact hs

theorem State.deliverPeer_movesNoExport (f : Frame) (start : Instant) (s : State) :
    MovesNoExport s (s.deliverPeer f start) := by
  have stored : ∀ t, MovesNoExport s t → MovesNoExport s (t.storeFrame f) := fun t ht =>
    ht.trans (.of_eq (by simp) (by simp) (by simp) (by simp))
  have judged : ∀ t, MovesNoExport s t → MovesNoExport s ((t.storeFrame f).judgeClock f) := fun t ht =>
    (stored t ht).trans (.of_eq (by simp) (by simp) (by simp) (by simp))
  unfold State.deliverPeer
  dsimp only
  repeat' split
  · exact judged s (.refl s)
  · exact judged _ (State.abortRun_movesNoExport s)
  · exact stored _ (.of_eq rfl rfl rfl rfl)
  · exact .refl s

theorem State.deliver_exportSafe (f : Frame) (start : Instant) (grantFirst : Bool) {s : State} (hs : ExportSafe s) :
    ExportSafe (s.deliver f start grantFirst) := by
  unfold State.deliver State.duplicateHeard
  repeat' split
  · exact State.enterFaulted_exportSafe _ _ s
  · exact hs
  · exact (State.deliverPeer_movesNoExport f start s).safe hs

theorem State.transmissionEnds_exportSafe (r : Reception) (grantFirst : Bool) {s : State} (hs : ExportSafe s) :
    ExportSafe (s.transmissionEnds r grantFirst) := by
  unfold State.transmissionEnds State.hear
  dsimp only
  repeat' split
  · exact State.heardMark_exportSafe _ hs
  · exact hs
  · exact hs
  · exact State.deliver_exportSafe _ _ grantFirst hs
  all_goals exact hs

theorem State.leaveNotSent_exportSafe (f : Frame) {s : State} (hs : ExportSafe s) : ExportSafe (s.leaveNotSent f) := by
  unfold State.leaveNotSent
  split
  · exact State.offlineWith_exportSafe _ _ _ s
  · exact hs

theorem State.withdrawalSent_movesNoExport (f : Frame) (s : State) : MovesNoExport s (s.withdrawalSent f) := by
  unfold State.withdrawalSent
  split
  · exact ⟨by simp, by simp, by simp, by simp, by simp⟩
  · exact .refl s

theorem State.outcomeSent_exportSafe (f : Frame) {s : State} (hs : ExportSafe s) : ExportSafe (s.outcomeSent f) := by
  unfold State.outcomeSent
  dsimp only
  split
  · exact State.offlineWith_exportSafe _ _ _ _
  · exact (MovesNoExport.trans ⟨rfl, fun _ => rfl, rfl, rfl, id⟩ (State.withdrawalSent_movesNoExport f _)).safe hs

theorem State.outcomeCut_exportSafe (f : Frame) (grantFirst : Bool) {s : State} (hs : ExportSafe s) :
    ExportSafe (s.outcomeCut f grantFirst) := by
  unfold State.outcomeCut
  dsimp only
  split
  · exact State.enterFaulted_exportSafe _ _ _
  · exact State.leaveNotSent_exportSafe f hs

/-! ### The post link (R23, R36, R38, R42, R100, R101) -/

/-- Before START no rating is latched and nothing is exported, so the duty is 0 at any rating (R145). -/
theorem State.takeStart_exportSafe (straps : Straps) (fields : List Byte) {s : State} (hs : StationWf s)
    (hoff : s.control.state = .offline) (he : ExportSafe s) : ExportSafe (s.takeStart straps fields) := by
  obtain ⟨-, -, configuration, -⟩ := hs.1 hoff
  obtain ⟨member, grant, permit, duty, line, announced⟩ := he
  have applied : s.setpoint.applied = 0 := member (by rw [hoff]; nofun)
  have idle : s.setpoint.duty = 0 := by rw [duty, configuration]; rfl
  rw [State.takeStart_frame]
  refine ⟨fun _ => applied, grant, permit, ?_, line, announced⟩
  show s.setpoint.duty = stageDuty (some (startConfiguration fields)) s.setpoint.applied
  rw [idle, applied]
  exact (Nat.zero_div _).symm

theorem State.takeProfile_exportSafe (fields : List Byte) {s : State} (hs : CausesFollow s) (he : ExportSafe s) :
    ExportSafe (s.takeProfile fields) := by
  unfold State.takeProfile
  split
  · let stored : State := { s with readiness := { s.readiness with profile := some (profileOf fields) } }
    have moved : MovesNoExport stored (stored.setCauses { s.control.causes with noProfile := false }) :=
      State.setCauses_movesNoExport hs fun h => by rw [show s.control.causes = .empty from h]; rfl
    have computed : ExportSafe (stored.setCauses { s.control.causes with noProfile := false }).computeOffer :=
      (moved.trans (State.computeOffer_movesNoExport _)).safe (MovesNoExport.safe ⟨rfl, fun _ => rfl, rfl, rfl, id⟩ he)
    exact (State.complete_movesNoExport _ _ _ _).safe (State.floorTest_exportSafe computed)
  · exact he

/-- The reading just taken has its announced figure set with its deviation test (R148). -/
theorem State.takeReading_exportSafe (fields : List Byte) {s : State} (hs : CausesFollow s) (he : ExportSafe s) :
    ExportSafe (s.takeReading fields) := by
  let stored : State :=
    { s with readiness := { s.readiness with reading := some (readingOf fields), lapseReported := false } }
  have tested : ExportSafe
      ((stored.setCauses { s.control.causes with noReading := false, lapse := false }).deviationTest
        (readingOf fields).measured).computeOffer := by
    rw [State.deviationTest_computeOffer]
    refine he.of_announced rfl (by simp [stored]) rfl (State.setCauses_member (s := stored) hs fun h => ?_)
    rw [show s.control.causes = .empty from h]
    rfl
  exact (State.complete_movesNoExport _ _ _ _).safe (State.floorTest_exportSafe tested)

theorem State.handle_exportSafe {k : RequestKind} (straps : Straps) (fields : List Byte) {s : State} (hs : StationWf s)
    (hk : kindAllowed k s.control.state = true) (hc : CausesFollow s) (he : ExportSafe s) :
    ExportSafe (s.handle k straps fields) := by
  cases k with
  | start => exact State.takeStart_exportSafe straps fields hs (of_decide_eq_true hk) he
  | profile => exact State.takeProfile_exportSafe fields hc he
  | reading => exact State.takeReading_exportSafe fields hc he
  | avail =>
    unfold State.handle
    dsimp only
    split
    · refine (State.setCauses_movesNoExport hc fun h => ?_).safe he
      rw [h]
      rfl
    · exact State.zeroExport_exportSafe (s.setCauses { s.control.causes with withdrawn := true })
  | takeNotice =>
    show ExportSafe s.takeHead
    unfold State.takeHead
    split <;> exact he
  | leave => exact .of_zeroed (u := s.setpoint) rfl
  | restart => exact State.offlineWith_exportSafe _ _ _ s
  | peer | status => exact he

theorem State.transact_exportSafe (straps : Straps) (selector : Byte) (bytes : List Byte) {s : State} (hs : StationWf s)
    (hc : CausesFollow s) (he : ExportSafe s) : ExportSafe (s.transact straps selector bytes) := by
  unfold State.transact
  split
  · unfold State.writeTransaction State.takeWrite
    dsimp only
    repeat' split
    · exact he
    · exact he
    · rename_i hpass
      obtain ⟨-, -, -, hallowed, -⟩ := checkRequest_pass hpass
      exact State.handle_exportSafe straps _ (s := State.openRequest _ _ _ (State.sendsOpen [] _ s)) hs hallowed hc he
    · exact he
    · exact he
  · exact MovesNoExport.safe (.of_eq (by simp) (by simp) (by simp) (by simp)) he
  · exact MovesNoExport.safe (.of_eq (by simp) (by simp) (by simp) (by simp)) he
  · exact he

/-! ### Inputs, the reading lapse and the STAGE period (R33, R34, R110, R146) -/

theorem State.plugFell_exportSafe {s : State} (he : ExportSafe s) : ExportSafe s.plugFell := by
  unfold State.plugFell
  split
  · exact State.zeroExport_exportSafe _
  · exact he

theorem State.plugRose_exportSafe {s : State} (he : ExportSafe s) : ExportSafe s.plugRose := by
  unfold State.plugRose
  split
  · exact State.zeroExport_exportSafe _
  · exact he

theorem State.stopPressed_exportSafe {s : State} (he : ExportSafe s) : ExportSafe s.stopPressed := by
  unfold State.stopPressed
  repeat' split
  · exact (State.notice_movesNoExport _ _).safe (State.zeroExport_exportSafe _)
  · exact (State.notice_movesNoExport _ s).safe he
  · exact he

theorem State.stopFreed_exportSafe {s : State} (hc : CausesFollow s) (he : ExportSafe s) : ExportSafe s.stopFreed := by
  unfold State.stopFreed
  repeat' split
  · refine ((State.setCauses_movesNoExport hc fun h => ?_).trans (State.notice_movesNoExport _ _)).safe he
    rw [h]
    rfl
  · exact (State.notice_movesNoExport _ s).safe he
  · exact he

theorem State.readingLapses_exportSafe {s : State} (he : ExportSafe s) : ExportSafe s.readingLapses := by
  have marked : ExportSafe { s with readiness := { s.readiness with lapseReported := true } } := he
  unfold State.readingLapses
  repeat' split
  · exact State.zeroExport_exportSafe _
  · exact (State.notice_movesNoExport _ _).safe marked
  all_goals exact he

/-- A period takes up the duty of its start (R146). -/
theorem State.periodStarts_exportSafe {s : State} (he : ExportSafe s) : ExportSafe s.periodStarts := by
  obtain h | ⟨p, h⟩ := s.periodStarts_eq
  · rw [h]
    exact he
  · obtain ⟨member, grant, permit, duty, -, announced⟩ := he
    rw [h]
    exact ⟨member, grant, permit, duty, Nat.le_refl _, announced⟩

/-! ### Every step -/

/-- The bound with the rule it rests on: a station in MEMBER has no cause, so none taken away brings it out. -/
def ExportSound (s : State) : Prop := CausesFollow s ∧ ExportSafe s

/-- The rule on causes is kept by what keeps the station; the bound is left to prove. -/
theorem Keeps.exportSound {f : State → State} (hf : Keeps StationSound f)
    (h : ∀ s, StationWf s → CausesFollow s → ExportSafe s → ExportSafe (f s)) : Keeps ExportSound f := by
  intro s hs ⟨hc, he⟩
  obtain ⟨-, causes⟩ := hf s hs ⟨hs, hc⟩
  exact ⟨causes, h s hs hc he⟩

/-- What each meaning keeps, meaning by meaning. -/
theorem exportSound_keptByEvents : KeptByEvents ExportSound where
  advance dt := (stationSound_keptByEvents.advance dt).exportSound fun s _ _ he =>
    MovesNoExport.safe ⟨by simp, by simp, by simp, by simp, by simp⟩ he
  settle _ hs := hs
  queue _ _ _ hs := hs
  inputs _ _ _ hs := hs
  powerOn i := (stationSound_keptByEvents.powerOn i).exportSound fun _ _ _ _ =>
    MovesNoExport.safe (.of_eq rfl rfl rfl rfl) State.reset_exportSafe
  transact straps selector bytes := (stationSound_keptByEvents.transact straps selector bytes).exportSound
    fun _ hs hc he => State.transact_exportSafe straps selector bytes hs hc he
  transmissionEnds r grantFirst := (stationSound_keptByEvents.transmissionEnds r grantFirst).exportSound
    fun _ _ _ he => State.transmissionEnds_exportSafe r grantFirst he
  lineWentIdle := stationSound_keptByEvents.lineWentIdle.exportSound fun s _ _ he =>
    MovesNoExport.safe (by unfold State.lineWentIdle; split <;> exact .of_eq rfl rfl rfl rfl) he
  timerExpires idle := (stationSound_keptByEvents.timerExpires idle).exportSound
    fun _ _ _ he => State.timerExpires_exportSafe idle he
  slotOpens idle := (stationSound_keptByEvents.slotOpens idle).exportSound
    fun s _ _ he => (State.slotOpens_movesNoExport idle s).safe he
  allocationPoint order := (stationSound_keptByEvents.allocationPoint order).exportSound
    fun _ _ _ he => State.allocationPoint_exportSafe order he
  runCompletes := stationSound_keptByEvents.runCompletes.exportSound fun _ _ _ he => State.runCompletes_exportSafe he
  frameStarts _ _ hs _ _ _ := hs
  frameBlocked s hs h opening f ht :=
    ⟨(stationSound_keptByEvents.frameBlocked s hs ⟨hs, h.1⟩ opening f ht).2, State.leaveNotSent_exportSafe f h.2⟩
  frameSent s hs h start f ht :=
    ⟨(stationSound_keptByEvents.frameSent s hs ⟨hs, h.1⟩ start f ht).2, State.outcomeSent_exportSafe f h.2⟩
  frameCut s hs h start f grantFirst ht :=
    ⟨(stationSound_keptByEvents.frameCut s hs ⟨hs, h.1⟩ start f grantFirst ht).2,
      State.outcomeCut_exportSafe f grantFirst h.2⟩
  markStopped _ _ hs _ _ := hs
  plugFell := stationSound_keptByEvents.plugFell.exportSound fun _ _ _ he => State.plugFell_exportSafe he
  plugRose := stationSound_keptByEvents.plugRose.exportSound fun _ _ _ he => State.plugRose_exportSafe he
  stopPressed := stationSound_keptByEvents.stopPressed.exportSound fun _ _ _ he => State.stopPressed_exportSafe he
  stopFreed := stationSound_keptByEvents.stopFreed.exportSound fun _ _ hc he => State.stopFreed_exportSafe hc he
  readingLapses := stationSound_keptByEvents.readingLapses.exportSound fun _ _ _ he => State.readingLapses_exportSafe he
  periodStarts := stationSound_keptByEvents.periodStarts.exportSound fun _ _ _ he => State.periodStarts_exportSafe he

/-- Settles O56: every event keeps the station and its causes, and with them the bound on what is exported. -/
theorem stepsKeepExportSafe : Obligations.StepsKeepExportSafe := by
  unfold Obligations.StepsKeepExportSafe
  intro s t hs hc h
  obtain ⟨station, causes⟩ := stationSound_keptByEvents.step h hs ⟨hs, hc⟩
  exact ⟨station, causes, fun he => (exportSound_keptByEvents.step h hs ⟨hc, he⟩).2⟩

end Sys2Proof.Machine
end

section
/-! Time, the supply, RESET and the input pins; a part out of service does nothing, and no command touches the queue
(R21, R30, R79, R98, R99, R102, R117, R151, R153, R160, R170; log entries 1 to 7; O2, O3, O5, O6). -/

namespace Sys2Proof.Machine

/-! ### Time (R79, R99, R102; log entries 2 and 7) -/

theorem State.running_iff (s : State) : s.running = true ↔ s.inputs.powered = true ∧ s.inputs.resetLow = false := by
  unfold State.running
  rw [Bool.and_eq_true, Bool.not_eq_true']

/-- Settles O3: in service by the clock and the held reading, out of service by the time base alone. -/
theorem timePasses : Obligations.TimePasses := by
  unfold Obligations.TimePasses
  refine fun dt s => ⟨s.running_iff, fun hr => ?inService, State.advance_stopped dt⟩
  case inService =>
    rw [State.advance_running dt hr]
    unfold ReadinessUnit.aged
    cases s.readiness.reading <;> rfl

/-! ### The supply and RESET (R21, R98, R151, R170) -/

/-- A part back at its power-on values has no IRQ condition, with supply or without (R160). -/
theorem happensAtInputs_powerOnValues (dt : Nat) (f : Inputs → Inputs) (s : State) :
    happensAtInputs dt (fun s => { s.powerOnValues with inputs := f s.inputs }) s =
      .next
        { State.reset with
          inputs := f s.inputs, now := s.now + dt, freeIndex := s.freeIndex, pending := s.pending } := by
  unfold happensAtInputs State.settle State.irqLevel State.powerOnValues
  simp only [State.advance_keeps, State.advance_now]
  exact congrArg (fun irq => Host.Outcome.next { State.reset with
    inputs := f s.inputs, link := { PostLink.reset with irq := irq }
    now := s.now + dt, freeIndex := s.freeIndex, pending := s.pending }) (Bool.and_false _)

theorem exec_resetRelease_held (dt : Nat) {s : State} (h : s.inputs.resetLow = true) :
    exec (.resetRelease dt) s =
      .next
        { State.reset with
          inputs := { s.inputs with resetLow := false }
          now := s.now + dt, freeIndex := s.freeIndex, pending := s.pending } := by
  rw [← happensAtInputs_powerOnValues dt fun i => { i with resetLow := false }]
  have low : (s.advance dt).inputs.resetLow = true := by simpa using h
  simp only [exec, execResetRelease, happensAtInputs, low, if_true]

/-- A RESET that is not held has no release (log entry 3). -/
theorem exec_resetRelease_unheld (dt : Nat) {s : State} (h : s.inputs.resetLow = false) :
    exec (.resetRelease dt) s = .next (s.advance dt).settle := by
  have low : (s.advance dt).inputs.resetLow = false := by simpa using h
  simp only [exec, execResetRelease, happensAtInputs, low, Bool.false_eq_true, if_false]

/-- Settles O5: each command returns the power-on values with its own input; a part without supply does not work. -/
theorem supplyAndResetGivePowerOnValues : Obligations.SupplyAndResetGivePowerOnValues := by
  unfold Obligations.SupplyAndResetGivePowerOnValues
  refine ⟨fun dt s => ⟨?powerOn, ?resetAssert, exec_resetRelease_held dt, exec_resetRelease_unheld dt⟩,
    fun dt s => ⟨_, ?powerLoss, rfl, rfl, rfl, rfl, rfl⟩⟩
  case powerOn => exact happensAtInputs_powerOnValues dt (fun i => { i with powered := true }) s
  case resetAssert => exact happensAtInputs_powerOnValues dt (fun i => { i with resetLow := true }) s
  case powerLoss => exact happensAtInputs_powerOnValues dt (fun i => { i with powered := false }) s

/-! ### The input pins (R33, R34, R81) -/

/-- A PLUG level from the pin (R33). -/
def State.withPlug (s : State) (high : Bool) : State := { s with inputs := { s.inputs with plug := high } }

/-- A STOP level from the pin (R34). -/
def State.withStop (s : State) (active : Bool) : State := { s with inputs := { s.inputs with stop := active } }

theorem State.withPlug_same {s : State} {high : Bool} (h : s.inputs.plug = high) : s.withPlug high = s := by
  subst h
  rfl

theorem State.withStop_same {s : State} {active : Bool} (h : s.inputs.stop = active) : s.withStop active = s := by
  subst h
  rfl

/-- A command of a pin: its effect takes place where the level moved at a working part, and the level is as the command
has it either way. -/
theorem State.ite_whenRunning (f : State → State) {s m u : State} (hr : u.running = s.running) {moved : Prop}
    [Decidable moved] (same : ¬moved → u = m) :
    (if moved then State.whenRunning f u else m) = if moved ∧ s.running = true then f u else u := by
  unfold State.whenRunning
  rw [hr]
  by_cases h : moved
  · simp [h]
  · simp [h, same h]

section
variable (dt : Nat) (s : State)

theorem exec_plugFall :
    exec (.plugFall dt) s =
      .next (State.settle
        (if s.inputs.plug = true ∧ s.running = true then ((s.advance dt).withPlug false).plugFell
         else (s.advance dt).withPlug false)) := by
  have level : (s.advance dt).inputs.plug = s.inputs.plug := by simp
  rw [← State.ite_whenRunning State.plugFell (m := s.advance dt) (u := (s.advance dt).withPlug false)
    (State.running_advance dt s) fun h => State.withPlug_same (by simpa using h), ← level]
  rfl

theorem exec_plugRise :
    exec (.plugRise dt) s =
      .next (State.settle
        (if s.inputs.plug = false ∧ s.running = true then ((s.advance dt).withPlug true).plugRose
         else (s.advance dt).withPlug true)) := by
  have level : (s.advance dt).inputs.plug = s.inputs.plug := by simp
  rw [← State.ite_whenRunning State.plugRose (m := s.advance dt) (u := (s.advance dt).withPlug true)
    (State.running_advance dt s) fun h => State.withPlug_same (by simpa using h), ← level]
  simp only [← Bool.not_eq_true, ite_not]
  rfl

theorem exec_stopActive :
    exec (.stopActive dt) s =
      .next (State.settle
        (if s.inputs.stop = false ∧ s.running = true then ((s.advance dt).withStop true).stopPressed
         else (s.advance dt).withStop true)) := by
  have level : (s.advance dt).inputs.stop = s.inputs.stop := by simp
  rw [← State.ite_whenRunning State.stopPressed (m := s.advance dt) (u := (s.advance dt).withStop true)
    (State.running_advance dt s) fun h => State.withStop_same (by simpa using h), ← level]
  simp only [← Bool.not_eq_true, ite_not]
  rfl

theorem exec_stopRelease :
    exec (.stopRelease dt) s =
      .next (State.settle
        (if s.inputs.stop = true ∧ s.running = true then ((s.advance dt).withStop false).stopFreed
         else (s.advance dt).withStop false)) := by
  have level : (s.advance dt).inputs.stop = s.inputs.stop := by simp
  rw [← State.ite_whenRunning State.stopFreed (m := s.advance dt) (u := (s.advance dt).withStop false)
    (State.running_advance dt s) fun h => State.withStop_same (by simpa using h), ← level]
  rfl

end

/-! ### Out of service (R21, R153, R160; log entries 5 and 7) -/

/-- A command that reaches no input takes the time it carries, and no more. -/
theorem exec_stopped {c : Instr} {s : State} (hr : s.running = false) (hc : reachesInputs c = false) :
    exec c s = .next (s.advance (elapsed c)).settle := by
  cases c with
  | powerOn | powerLoss | resetAssert | resetRelease | plugFall | plugRise | stopActive | stopRelease
  | gridInputChange => cases hc
  | _ => exact happens_stopped hr

/-- A level moved at a part out of service, whose IRQ stays released. -/
theorem State.settle_pins_stopped (dt : Nat) {s : State} (hr : s.running = false) {i : Inputs}
    (hi : i.powered = s.inputs.powered ∧ i.resetLow = s.inputs.resetLow) :
    State.settle { s.advance dt with inputs := i } =
      { s with now := s.now + dt, link := { s.link with irq := false }, inputs := i } := by
  obtain ⟨powered, reset⟩ := hi
  have stopped : ({ s.advance dt with inputs := i } : State).running = false := by
    show (i.powered && !i.resetLow) = false
    rw [powered, reset]
    exact hr
  rw [State.settle_stopped stopped, State.advance_stopped dt hr]

/-- Settles O6: a command that reaches no input by the time it carries, one of a pin by its level. -/
theorem nothingHappensOutOfService : Obligations.NothingHappensOutOfService := by
  unfold Obligations.NothingHappensOutOfService
  intro c dt s hr still
  have pins := fun i hi => congrArg (Host.Outcome.next (φ := Fault) (ρ := Refusal))
    (State.settle_pins_stopped dt hr (i := i) hi)
  have inputs : (s.advance dt).inputs = s.inputs := by simp
  have idle : ∀ P : Prop, ¬(P ∧ s.running = true) := fun P h => by simp [hr] at h
  refine ⟨fun hc hdt => ?other, ?plugFall, ?plugRise, ?stopActive, ?stopRelease, fun l b => ?grid⟩
  case other =>
    rw [exec_stopped hr hc, hdt, State.settle_stopped ((State.running_advance dt s).trans hr),
      State.advance_stopped dt hr]
  case plugFall =>
    rw [exec_plugFall, if_neg (idle _), State.withPlug, inputs]
    exact pins _ ⟨rfl, rfl⟩
  case plugRise =>
    rw [exec_plugRise, if_neg (idle _), State.withPlug, inputs]
    exact pins _ ⟨rfl, rfl⟩
  case stopActive =>
    rw [exec_stopActive, if_neg (idle _), State.withStop, inputs]
    exact pins _ ⟨rfl, rfl⟩
  case stopRelease =>
    rw [exec_stopRelease, if_neg (idle _), State.withStop, inputs]
    exact pins _ ⟨rfl, rfl⟩
  case grid =>
    refine Eq.trans ?_ (pins { s.inputs with grid := quadSet s.inputs.grid l b } ⟨rfl, rfl⟩)
    rw [← inputs]
    rfl

/-! ### The queue (log entry 1) -/

/-- An effect that leaves the queue of commands. -/
def LeavesPending (f : State → State) : Prop := ∀ s, (f s).pending = s.pending

theorem State.handle_pending (k : RequestKind) (straps : Straps) (fields : List Byte) :
    LeavesPending (State.handle k straps fields) := by
  intro s
  cases k with
  | start => rw [State.handle, State.takeStart_frame]; rfl
  | profile =>
    show (s.takeProfile fields).pending = _
    unfold State.takeProfile
    split <;> simp
  | reading => simp [State.handle, State.takeReading]
  | avail =>
    unfold State.handle State.takeAvailable State.takeWithdrawn
    dsimp only
    split <;> simp
  | takeNotice =>
    show s.takeHead.pending = _
    unfold State.takeHead
    split <;> rfl
  | peer | status | leave | restart => rfl

theorem State.transact_pending (straps : Straps) (selector : Byte) (bytes : List Byte) :
    LeavesPending (State.transact straps selector bytes) := by
  intro s
  unfold State.transact
  split
  · unfold State.writeTransaction State.takeWrite
    dsimp only
    repeat' split
    · rfl
    · rfl
    · rw [State.handle_pending]
      rfl
    all_goals rfl
  · simp
  · simp
  · rfl

theorem State.timerExpires_pending (idle : Bool) : LeavesPending (State.timerExpires idle) := by
  intro s
  unfold State.timerExpires
  dsimp only
  repeat' split
  all_goals simp

theorem State.slotOpens_pending (idle : Bool) : LeavesPending (State.slotOpens idle) := by
  intro s
  unfold State.slotOpens
  dsimp only
  repeat' split
  all_goals rfl

theorem State.allocationPoint_pending (order : Arrival) : LeavesPending (State.allocationPoint order) := by
  intro s
  unfold State.allocationPoint
  repeat' split
  all_goals simp

theorem State.runCompletes_pending : LeavesPending State.runCompletes := by
  intro s
  unfold State.runCompletes
  repeat' split
  all_goals simp

theorem State.heardMark_pending (start : Instant) : LeavesPending (State.heardMark start) := by
  intro s
  unfold State.heardMark
  repeat' split
  all_goals simp

theorem State.deliver_pending (f : Frame) (start : Instant) (grantFirst : Bool) :
    LeavesPending (State.deliver f start grantFirst) := by
  intro s
  unfold State.deliver State.duplicateHeard State.deliverPeer
  dsimp only
  repeat' split
  all_goals simp

theorem State.transmissionEnds_pending (r : Reception) (grantFirst : Bool) :
    LeavesPending (State.transmissionEnds r grantFirst) := by
  intro s
  unfold State.transmissionEnds State.hear
  dsimp only
  repeat' split
  · exact State.heardMark_pending _ s
  · rfl
  · rfl
  · exact State.deliver_pending _ _ grantFirst s
  all_goals rfl

theorem State.lineWentIdle_pending : LeavesPending State.lineWentIdle := by
  intro s
  unfold State.lineWentIdle
  split <;> rfl

theorem State.leaveNotSent_pending (f : Frame) : LeavesPending (State.leaveNotSent f) := by
  intro s
  unfold State.leaveNotSent
  split <;> rfl

theorem State.outcomeSent_pending (f : Frame) : LeavesPending (State.outcomeSent f) := by
  intro s
  unfold State.outcomeSent State.withdrawalSent
  dsimp only
  repeat' split
  · rfl
  · simp
  · rfl

theorem State.outcomeCut_pending (f : Frame) (grantFirst : Bool) :
    LeavesPending fun s => s.outcomeCut f grantFirst := by
  intro s
  unfold State.outcomeCut
  dsimp only
  split
  · simp
  · rw [State.leaveNotSent_pending]

theorem State.plugFell_pending : LeavesPending State.plugFell := by
  intro s
  unfold State.plugFell
  split <;> simp

theorem State.plugRose_pending : LeavesPending State.plugRose := by
  intro s
  unfold State.plugRose
  split <;> simp

theorem State.stopPressed_pending : LeavesPending State.stopPressed := by
  intro s
  unfold State.stopPressed
  repeat' split
  all_goals simp

theorem State.stopFreed_pending : LeavesPending State.stopFreed := by
  intro s
  unfold State.stopFreed
  repeat' split
  all_goals simp

theorem State.readingLapses_pending : LeavesPending State.readingLapses := by
  intro s
  unfold State.readingLapses
  repeat' split
  all_goals simp

theorem State.periodStarts_pending : LeavesPending State.periodStarts := by
  intro s
  obtain h | ⟨p, h⟩ := s.periodStarts_eq <;> rw [h]

section
variable {dt : Nat} {f : State → State} {s t : State}

theorem happensAtInputs_pending (hf : LeavesPending f) (h : happensAtInputs dt f s = .next t) :
    t.pending = s.pending := by
  cases h
  simp [hf (s.advance dt)]

theorem happens_pending (hf : LeavesPending f) (h : happens dt f s = .next t) : t.pending = s.pending := by
  refine happensAtInputs_pending (f := State.whenRunning f) (fun u => ?_) h
  unfold State.whenRunning
  split
  · exact hf u
  · rfl

end

/-- Each command, by the effect it has; one at the pins may have none. -/
theorem exec_pending {c : Instr} {s t : State} (h : exec c s = .next t) : t.pending = s.pending := by
  cases c with
  | powerOn | powerLoss | resetAssert =>
    simp only [exec, execPowerOn, execPowerLoss, execResetAssert] at h
    refine happensAtInputs_pending (fun u => ?_) h
    rfl
  | resetRelease =>
    simp only [exec, execResetRelease] at h
    refine happensAtInputs_pending (fun u => ?_) h
    split <;> rfl
  | ignoredTransaction | writeRequest | readResponse | readFlags | start | profile | reading | availAvailable
  | availWithdrawn | takeNotice | peer | status | leave | restart =>
    exact happens_pending (State.transact_pending _ _ _) h
  | transmissionEnd dt r grantFirst => exact happens_pending (State.transmissionEnds_pending r grantFirst) h
  | roundTimerExpiry dt idle => exact happens_pending (State.timerExpires_pending idle) h
  | ownSlotOpening dt idle => exact happens_pending (State.slotOpens_pending idle) h
  | allocationPoint dt order => exact happens_pending (State.allocationPoint_pending order) h
  | runCompletion => exact happens_pending State.runCompletes_pending h
  | frameStartDeferred =>
    simp only [exec, execFrameStartDeferred] at h
    refine happens_pending (fun u => ?_) h
    repeat' split
    all_goals rfl
  | slotStartDeadline =>
    simp only [exec, execSlotStartDeadline] at h
    refine happens_pending (fun u => ?_) h
    repeat' split
    · rw [State.leaveNotSent_pending]
    all_goals rfl
  | frameSent =>
    simp only [exec, execFrameSent] at h
    refine happens_pending (fun u => ?_) h
    repeat' split
    · exact State.outcomeSent_pending _ u
    all_goals rfl
  | readbackMismatch dt grantFirst =>
    simp only [exec, execReadbackMismatch] at h
    refine happens_pending (fun u => ?_) h
    repeat' split
    · exact State.outcomeCut_pending _ grantFirst u
    all_goals rfl
  | plugFall =>
    rw [exec_plugFall] at h
    cases h
    split <;> simp [State.plugFell_pending _, State.withPlug]
  | plugRise =>
    rw [exec_plugRise] at h
    cases h
    split <;> simp [State.plugRose_pending _, State.withPlug]
  | stopActive =>
    rw [exec_stopActive] at h
    cases h
    split <;> simp [State.stopPressed_pending _, State.withStop]
  | stopRelease =>
    rw [exec_stopRelease] at h
    cases h
    split <;> simp [State.stopFreed_pending _, State.withStop]
  | gridInputChange =>
    simp only [exec, execGridInputChange] at h
    refine happensAtInputs_pending (fun u => ?_) h
    rfl
  | readingLapse => exact happens_pending State.readingLapses_pending h
  | lineIdleAfterStart => exact happens_pending State.lineWentIdle_pending h
  | stagePeriodStart => exact happens_pending State.periodStarts_pending h

theorem step_of_pending_nil {s : State} (h : s.pending = []) : step s = .next s := by
  unfold step
  rw [h]

/-- Settles O2: every command ends in a next state, with the queue by its effect; on an empty queue there is none. -/
theorem everyCommandAnswers : Obligations.EveryCommandAnswers := by
  unfold Obligations.EveryCommandAnswers
  refine ⟨fun c s => ?_, fun s => step_of_pending_nil⟩
  obtain ⟨t, ht⟩ := exec_answers c s
  exact ⟨_, ht, exec_pending ht⟩

end Sys2Proof.Machine
end

section
/-! The cause set, the PLUG and STOP inputs, and the requests AVAIL, LEAVE and RESTART
(R31, R33, R34, R36 to R38, R42, R103, R107, R113, R143, R164, R166; O14, O17, O18, O49, O50, O51). -/

namespace Sys2Proof.Machine

/-! ### The cause set (R31, R103, R107) -/

/-- A change of causes moves Station Control and the figures alone. -/
theorem State.setCauses_frame (c : HoldCauses) (s : State) :
    s.setCauses c = { s with control := (s.setCauses c).control, readiness := (s.setCauses c).readiness } := by
  unfold State.setCauses
  split <;> rfl

/-- What it makes of Station Control and of the figures rests on nothing else. -/
theorem State.setCauses_control_congr (c : HoldCauses) {s t : State} (h : t.control = s.control) :
    (t.setCauses c).control = (s.setCauses c).control := by
  rw [State.setCauses_control_eq, State.setCauses_control_eq, h]

theorem State.setCauses_readiness_congr (c : HoldCauses) {s t : State} (h : t.control = s.control)
    (hr : t.readiness = s.readiness) : (t.setCauses c).readiness = (s.setCauses c).readiness := by
  rw [State.setCauses_readiness_eq, State.setCauses_readiness_eq, h, hr]

theorem HoldCauses.eq_empty_iff (c : HoldCauses) :
    c = .empty ↔
      c.noBus = false ∧ c.noProfile = false ∧ c.noReading = false ∧ c.lapse = false ∧ c.stop = false ∧
      c.withdrawn = false := by
  obtain ⟨bus, profile, reading, lapse, stop, withdrawn⟩ := c
  simp [HoldCauses.empty]

theorem followCauses_eq (st : StationState) (c : HoldCauses) :
    followCauses st c =
      if st = .member ∨ st = .holding then (if c = .empty then .member else .holding) else st := by
  cases st with
  | member | holding => simp [followCauses, HoldCauses.isEmpty]
  | offline | joining | leaving | faulted => rfl

/-- Settles O49: the state by its own, the offer power by the cause that there is. -/
theorem causesMoveTheState : Obligations.CausesMoveTheState := by
  unfold Obligations.CausesMoveTheState
  refine fun c s => ⟨c.eq_empty_iff, fun same => if_pos same, fun other => ⟨?moved, fun hc => ?power⟩⟩
  case moved =>
    rw [State.setCauses_frame, State.setCauses_control_eq, State.setCauses_readiness_eq, if_neg other, if_neg other,
      followCauses_eq]
  case power =>
    rw [State.setCauses_readiness_eq, if_neg other]
    exact offerPowerOf_zero (.inr (.inr hc))

/-! ### PLUG (R33, R113, R143) -/

/-- With profile and reading discarded no figure is left, whatever the causes (R103, R113). -/
theorem ReadinessUnit.discarded_computed (r : ReadinessUnit) (c : HoldCauses) (cfg : Option Configuration) :
    r.discarded.computed c cfg = ReadinessUnit.reset := rfl

section
variable {m : State} (hw : m.control.state.watches = true)
include hw

theorem State.plugFell_watched :
    m.plugFell =
      { m with
        control := (m.setCauses { m.control.causes with noBus := true }).control
        readiness := ReadinessUnit.reset
        setpoint := m.setpoint.at_ 0 m.control.configuration ReadinessUnit.reset } := by
  unfold State.plugFell
  rw [if_pos hw]
  dsimp only
  rw [State.setCauses_computeOffer, ReadinessUnit.discarded_computed, State.setCauses_control_eq,
    State.setCauses_control_eq]
  rfl

theorem State.plugRose_watched :
    let risen := { m.control.causes with noBus := false, noProfile := true, noReading := true }
    m.plugRose =
      { m.setCauses risen with setpoint := m.setpoint.at_ 0 m.control.configuration m.readiness } := by
  unfold State.plugRose
  rw [if_pos hw]
  exact State.setCauses_zeroExport _ m

theorem State.stopPressed_watched :
    m.stopPressed =
      { m.setCauses { m.control.causes with stop := true } with
        setpoint := m.setpoint.at_ 0 m.control.configuration m.readiness
        notices := folded m.enabled m.timer.roundCount [stopNotice true] m.notices } := by
  unfold State.stopPressed
  rw [if_pos hw, State.setCauses_zeroExport, State.notice_eq, State.notice_notices,
    State.enabled_of_configuration (s := m) (by simp)]
  simp

theorem State.stopFreed_watched :
    m.stopFreed =
      { m.setCauses { m.control.causes with stop := false } with
        notices := folded m.enabled m.timer.roundCount [stopNotice false] m.notices } := by
  unfold State.stopFreed
  rw [if_pos hw, State.notice_eq, State.notice_notices, State.enabled_of_configuration (s := m) (by simp)]
  simp

end

theorem StationState.unwatched {st : StationState} (h : st = .offline ∨ st = .faulted) : ¬st.watches = true := by
  obtain rfl | rfl := h <;> exact nofun

theorem State.plugFell_unwatched {m : State} (h : m.control.state = .offline ∨ m.control.state = .faulted) :
    m.plugFell = m := if_neg (StationState.unwatched h)

theorem State.plugRose_unwatched {m : State} (h : m.control.state = .offline ∨ m.control.state = .faulted) :
    m.plugRose = m := if_neg (StationState.unwatched h)

/-- Settles O50: in the watching states by what a fall or a rise does, in the others by the level alone. -/
theorem plugChanges : Obligations.PlugChanges := by
  unfold Obligations.PlugChanges
  intro dt s hr m watched fallen risen
  obtain ⟨mi, -, -, mc, -, -, -, ms, -⟩ := State.advance_keeps dt s
  have watches : watched → m.control.state.watches = true := fun h => by
    rw [mc]
    exact (StationState.watches_iff _).mpr h
  refine ⟨fun hplug hw => ?fall, fun hplug hw => ?rise, fun hst => ⟨?fallUnwatched, ?riseUnwatched⟩,
    fun hplug => ?low, fun hplug => ?high⟩
  case fall =>
    rw [exec_plugFall, if_pos ⟨hplug, hr⟩, State.plugFell_watched (m := m.withPlug false) (watches hw)]
    rw [State.setCauses_control_congr _ (s := s) (t := m.withPlug false) mc]
    show Host.Outcome.next (State.settle { m with
      inputs := { m.inputs with plug := false }
      control := (s.setCauses { m.control.causes with noBus := true }).control
      readiness := ReadinessUnit.reset
      setpoint := m.setpoint.at_ 0 m.control.configuration ReadinessUnit.reset }) = _
    rw [mi, mc, ms]
  case rise =>
    rw [exec_plugRise, if_pos ⟨hplug, hr⟩, State.plugRose_watched (m := m.withPlug true) (watches hw),
      State.setCauses_frame, State.setCauses_control_congr _ (s := s) (t := m.withPlug true) mc,
      State.setCauses_readiness_congr _ (s := m) (t := m.withPlug true) rfl rfl]
    show Host.Outcome.next (State.settle { m with
      inputs := { m.inputs with plug := true }
      control := (s.setCauses { m.control.causes with noBus := false, noProfile := true, noReading := true }).control
      readiness :=
        (m.setCauses { m.control.causes with noBus := false, noProfile := true, noReading := true }).readiness
      setpoint := m.setpoint.at_ 0 m.control.configuration m.readiness }) = _
    rw [mi, mc, ms]
  case fallUnwatched =>
    rw [exec_plugFall, State.plugFell_unwatched (m := m.withPlug false) (mc ▸ hst), ite_self, State.withPlug, mi]
  case riseUnwatched =>
    rw [exec_plugRise, State.plugRose_unwatched (m := m.withPlug true) (mc ▸ hst), ite_self, State.withPlug, mi]
  case low =>
    rw [exec_plugFall, if_neg (by simp [hplug]), State.withPlug_same (s := m) (by rw [mi, hplug])]
  case high =>
    rw [exec_plugRise, if_neg (by simp [hplug]), State.withPlug_same (s := m) (by rw [mi, hplug])]

/-! ### STOP (R30, R34, R143) -/

theorem State.stopPressed_faulted {m : State} (h : m.control.state = .faulted) :
    m.stopPressed = { m with notices := folded m.enabled m.timer.roundCount [stopNotice true] m.notices } := by
  unfold State.stopPressed
  rw [if_neg (StationState.unwatched (.inr h)), if_pos h, State.notice_eq, State.notice_notices]

theorem State.stopFreed_faulted {m : State} (h : m.control.state = .faulted) :
    m.stopFreed = { m with notices := folded m.enabled m.timer.roundCount [stopNotice false] m.notices } := by
  unfold State.stopFreed
  rw [if_neg (StationState.unwatched (.inr h)), if_pos h, State.notice_eq, State.notice_notices]

theorem State.stopPressed_offline {m : State} (h : m.control.state = .offline) : m.stopPressed = m := by
  unfold State.stopPressed
  rw [if_neg (StationState.unwatched (.inl h)), if_neg (by rw [h]; nofun)]

theorem State.stopFreed_offline {m : State} (h : m.control.state = .offline) : m.stopFreed = m := by
  unfold State.stopFreed
  rw [if_neg (StationState.unwatched (.inl h)), if_neg (by rw [h]; nofun)]

/-- Settles O51: in the watching states by cause and notice, in FAULTED by the notice, in OFFLINE by the level alone. -/
theorem stopChanges : Obligations.StopChanges := by
  unfold Obligations.StopChanges
  intro dt s hr m noticed watched pressed freed active released
  obtain ⟨mi, -, mt, mc, -, -, -, ms, -, mn, -⟩ := State.advance_keeps dt s
  have menabled : m.enabled = s.enabled := State.enabled_of_configuration (congrArg StationControl.configuration mc)
  have queue : ∀ b, folded m.enabled m.timer.roundCount [stopNotice b] m.notices = noticed b := fun b => by
    rw [menabled, mt, mn]
    rfl
  have watches : watched → m.control.state.watches = true := fun h => by
    rw [mc]
    exact (StationState.watches_iff _).mpr h
  have hactive : m.withStop true = active := by rw [State.withStop, mi]
  have hreleased : m.withStop false = released := by rw [State.withStop, mi]
  have causesPressed : ({ active.control.causes with stop := true } : HoldCauses) =
    { s.control.causes with stop := true } := congrArg (fun c : StationControl => { c.causes with stop := true }) mc
  have causesFreed : ({ released.control.causes with stop := false } : HoldCauses) =
    { s.control.causes with stop := false } := congrArg (fun c : StationControl => { c.causes with stop := false }) mc
  refine ⟨fun hstop hw => ?press, fun hstop hw => ?free, fun hst => ⟨fun hstop => ?pressFaulted,
    fun hstop => ?freeFaulted⟩, fun hst => ⟨?pressOffline, ?freeOffline⟩, fun hstop => ?high, fun hstop => ?low⟩
  case press =>
    rw [exec_stopActive, if_pos ⟨hstop, hr⟩, hactive, State.stopPressed_watched (m := active) (watches hw),
      State.setCauses_frame, causesPressed, State.setCauses_control_congr _ (s := m) (t := active) rfl,
      State.setCauses_readiness_congr _ (s := m) (t := active) rfl rfl]
    rw [show folded active.enabled active.timer.roundCount [stopNotice true] active.notices = noticed true from queue _,
      show active.setpoint = s.setpoint from ms, show active.control = s.control from mc]
  case free =>
    rw [exec_stopRelease, if_pos ⟨hstop, hr⟩, hreleased, State.stopFreed_watched (m := released) (watches hw),
      State.setCauses_frame, causesFreed, State.setCauses_control_congr _ (s := m) (t := released) rfl,
      State.setCauses_readiness_congr _ (s := m) (t := released) rfl rfl]
    rw [show folded released.enabled released.timer.roundCount [stopNotice false] released.notices = noticed false
      from queue _]
  case pressFaulted =>
    rw [exec_stopActive, if_pos ⟨hstop, hr⟩, hactive, State.stopPressed_faulted (m := active) (mc ▸ hst)]
    exact congrArg (fun q => Host.Outcome.next (State.settle { active with notices := q })) (queue true)
  case freeFaulted =>
    rw [exec_stopRelease, if_pos ⟨hstop, hr⟩, hreleased, State.stopFreed_faulted (m := released) (mc ▸ hst)]
    exact congrArg (fun q => Host.Outcome.next (State.settle { released with notices := q })) (queue false)
  case pressOffline =>
    rw [exec_stopActive, hactive, State.stopPressed_offline (m := active) (mc ▸ hst), ite_self]
  case freeOffline =>
    rw [exec_stopRelease, hreleased, State.stopFreed_offline (m := released) (mc ▸ hst), ite_self]
  case high =>
    rw [exec_stopActive, if_neg (by simp [hstop]), State.withStop_same (s := m) (by rw [mi, hstop])]
  case low =>
    rw [exec_stopRelease, if_neg (by simp [hstop]), State.withStop_same (s := m) (by rw [mi, hstop])]

/-! ### AVAIL (R31, R36, R37, R143, R164) -/

section
variable {m : State} (hr : m.running = true) (len : Byte) (fields : List Byte)
include hr

/-- AVAIL(available) moves WITHDRAWN out of the causes and answers at once. -/
theorem State.takeAvailable_settled :
    let q := m.setCauses { m.control.causes with withdrawn := false }
    ((m.openRequest (kindCode .avail) len fields).takeAvailable).settle =
      { m with
        control := q.control, readiness := q.readiness
        link := { m.link.answered (kindCode .avail) .ok [] with irq := true } } := by
  intro q
  let opened := m.openRequest (kindCode .avail) len fields
  have control := State.setCauses_control_congr { m.control.causes with withdrawn := false } (s := m) (t := opened) rfl
  have readiness :=
    State.setCauses_readiness_congr { m.control.causes with withdrawn := false } (s := m) (t := opened) rfl rfl
  show State.settle (State.complete (kindCode .avail) .ok []
    (opened.setCauses { m.control.causes with withdrawn := false })) = _
  rw [State.setCauses_frame, control, readiness]
  refine (State.settle_running ?_).trans rfl
  exact hr

/-- AVAIL(withdrawn) puts WITHDRAWN into the causes, zeroes what is applied and waits. -/
theorem State.takeWithdrawn_settled :
    let q := m.setCauses { m.control.causes with withdrawn := true }
    ((m.openRequest (kindCode .avail) len fields).takeWithdrawn).settle =
      { m with
        control := { q.control with withdrawalPending := true, announcementBuilt := false }
        readiness := q.readiness
        setpoint := m.setpoint.at_ 0 m.control.configuration q.readiness
        link := { m.link.holding (kindCode .avail) len fields with irq := irqOf false m.notices } } := by
  intro q
  let opened := m.openRequest (kindCode .avail) len fields
  have control := State.setCauses_control_congr { m.control.causes with withdrawn := true } (s := m) (t := opened) rfl
  have readiness :=
    State.setCauses_readiness_congr { m.control.causes with withdrawn := true } (s := m) (t := opened) rfl rfl
  have configuration : q.control.configuration = m.control.configuration := by simp [q]
  unfold State.takeWithdrawn
  dsimp only
  rw [show opened.control.causes = m.control.causes from rfl, State.setCauses_frame, control, readiness,
    ← configuration]
  refine (State.settle_running ?_).trans rfl
  exact hr

end

/-- Settles O14: each form by what it leaves of the state the write finds. -/
theorem availMovesTheWithdrawal : Obligations.AvailMovesTheWithdrawal := by
  unfold Obligations.AvailMovesTheWithdrawal
  refine ⟨fun dt len extra s hs hcheck => ?available, fun dt len extra s hs hcheck => ?withdrawn⟩
  case available =>
    intro m q
    obtain ⟨hr, hb⟩ := hs
    have mc : m.control = s.control := State.written_control dt _ s
    have running : m.running = true := (State.running_of_inputs (by simp [m, State.written])).trans hr
    have executed : exec (.availAvailable dt len extra) s =
        .next ((m.openRequest (kindCode .avail) len (0x00 :: extra)).takeAvailable).settle :=
      execWriteRequest_pass (straps := noStraps) hr hb hcheck
    rw [executed, State.takeAvailable_settled running, mc]
    refine ⟨_, rfl, rfl, rfl, fun hclear => ?_, rfl, rfl⟩
    have same : q = m := if_pos (by rw [mc, ← hclear])
    have control : q.control = m.control := congrArg State.control same
    have readiness : q.readiness = m.readiness := congrArg State.readiness same
    exact ⟨control.trans mc, readiness⟩
  case withdrawn =>
    intro m q
    obtain ⟨hr, hb⟩ := hs
    have mc : m.control = s.control := State.written_control dt _ s
    have mn : m.notices = s.notices := by simp [m, State.written]
    have running : m.running = true := (State.running_of_inputs (by simp [m, State.written])).trans hr
    have executed : exec (.availWithdrawn dt len extra) s =
        .next ((m.openRequest (kindCode .avail) len (0x01 :: extra)).takeWithdrawn).settle :=
      execWriteRequest_pass (straps := noStraps) hr hb hcheck
    obtain ⟨causes, -⟩ := State.setCauses_control { s.control.causes with withdrawn := true } m
    rw [executed, State.takeWithdrawn_settled running, mc, mn]
    exact ⟨_, rfl, rfl, congrArg HoldCauses.withdrawn causes, rfl, rfl, rfl, rfl, rfl⟩

/-! ### LEAVE and RESTART (R38, R42, R143, R166) -/

/-- LEAVE without fields passes in MEMBER and HOLDING (R157, R171). -/
theorem leave_passes {st : StationState} (h : st = .member ∨ st = .holding) :
    checkRequest (kindCode .leave) 0x00 [] st = .pass .leave := by
  obtain rfl | rfl := h <;> rfl

theorem restart_passes (st : StationState) : checkRequest (kindCode .restart) 0x00 [] st = .pass .restart := rfl

/-- Settles O17: the check, then LEAVE as it is taken. -/
theorem leaveEntersLeaving : Obligations.LeaveEntersLeaving := by
  unfold Obligations.LeaveEntersLeaving
  intro dt s ⟨hr, hb⟩ hst m
  have executed : exec (.leave dt 0x00 []) s =
      .next ((m.openRequest (kindCode .leave) 0x00 []).takeLeave).settle :=
    execWriteRequest_pass (straps := noStraps) hr hb (leave_passes hst)
  rw [executed, ← State.written_control dt 2 s]
  rfl

/-- Settles O18: the check, which every state passes, then the values RESTART leaves, with DONE set. -/
theorem restartReturnsPowerOnValues : Obligations.RestartReturnsPowerOnValues := by
  unfold Obligations.RestartReturnsPowerOnValues
  intro dt s ⟨hr, hb⟩ m
  have inputs : m.inputs = s.inputs := by simp [m, State.written]
  have pending : m.pending = s.pending := by simp [m, State.written]
  have running : (m.openRequest (kindCode .restart) 0x00 []).takeRestart.running = true :=
    (State.running_of_inputs inputs).trans hr
  have executed : exec (.restart dt 0x00 []) s =
      .next ((m.openRequest (kindCode .restart) 0x00 []).takeRestart).settle :=
    execWriteRequest_pass (straps := noStraps) hr hb (restart_passes _)
  rw [executed, State.settle_running running, ← inputs, ← pending]
  rfl

end Sys2Proof.Machine
end

section
/-! The allocation point: isolation, offer, floor test and join, and what it leaves (R26, R41, R61, R103, R108; O39). -/

namespace Sys2Proof.Machine

/-! ### The peers heard (R41) -/

theorem State.hearsFresh_iff {w : State} (h32 : w.peers.entries.length = 32) :
    w.hearsFresh = true ↔ ∃ k < 32, w.control.number ≠ some k ∧ (w.peers.entry k).presence = .fresh := by
  unfold State.hearsFresh
  rw [decide_eq_true_iff, countWhere_pos _ _ h32]
  simp [isPeer_iff, PeerTable.entry]

theorem State.hearsPresent_iff {w : State} (h32 : w.peers.entries.length = 32) :
    w.hearsPresent = true ↔ ∃ k < 32, w.control.number ≠ some k ∧ (w.peers.entry k).presence.isPresent = true := by
  unfold State.hearsPresent
  rw [decide_eq_true_iff, countWhere_pos _ _ h32]
  simp [isPeer_iff, PeerTable.entry]

/-- The condition falls with a FRESH peer, and rises once a peer was heard and none is left. -/
theorem State.judgeIsolation_isolated (w : State) :
    (w.control.state.joined = true →
      (w.judgeIsolation.1.control.isolated = true ↔
        (w.control.isolated = true ∧ ¬w.hearsFresh = true) ∨
        (w.control.isolated = false ∧ (w.control.peerHeard = true ∨ w.hearsFresh = true) ∧
          ¬w.hearsPresent = true))) ∧
    (w.control.state.joined = false → w.judgeIsolation.1.control.isolated = w.control.isolated) := by
  rw [(State.judgeIsolation_control w).1]
  refine ⟨fun joined => ?_, fun joined => by simp [joined]⟩
  cases hi : w.control.isolated <;> simp [joined]

/-! ### The join (R26) -/

theorem State.joinIfDue_joins {j : State} (h : j.control.state = .joining ∧ j.timer.allocations = 2) :
    j.joinIfDue.control.state = (if j.control.causes = .empty then .member else .holding) ∧
    ∀ r, j.link.request = some r →
      j.joinIfDue.link =
        j.link.answered r.kind .ok
          [byte (j.control.number.getD 0), flagByte (j.control.signalStrap.getD false)] := by
  unfold State.joinIfDue
  rw [if_pos h]
  refine ⟨by simp [HoldCauses.isEmpty], fun r hr => ?_⟩
  simp only [State.completeInFlight, hr]
  rfl

theorem State.joinIfDue_waits {j : State} (h : ¬(j.control.state = .joining ∧ j.timer.allocations = 2)) :
    j.joinIfDue = j := if_neg h

/-! ### Offer, floor test and freeze (R103, R108, R109) -/

/-- Setpoint and figures once the view is frozen, or none is in a state without runs. -/
theorem State.offered_frozen {w : State} {c : Configuration} (hc : w.control.configuration = some c) :
    let R := w.readiness.computed w.control.causes w.control.configuration
    let reached := R.offerEnergy = 0 ∧ 0 < w.setpoint.applied
    (reached →
      w.offered.setpoint = w.setpoint.at_ 0 w.control.configuration w.readiness ∧
      w.offered.freezeView.1.readiness =
        { R with floorHold := true, holdAfterView := !w.control.state.runs }) ∧
    (¬reached →
      w.offered.setpoint = w.setpoint ∧
      w.offered.freezeView.1.readiness =
        { R with holdAfterView := if w.control.state.runs then false else w.readiness.holdAfterView }) := by
  intro R reached
  obtain ⟨control, -⟩ := State.judgeIsolation_control w
  obtain ⟨offered, -⟩ := State.offerAtAllocation_eq w.judgeIsolation.1
  have figures : w.judgeIsolation.1.readiness.computed w.judgeIsolation.1.control.causes
      w.judgeIsolation.1.control.configuration = R := by
    rw [control]
    simp [R]
  obtain ⟨state, -, configuration⟩ := State.offered_control w
  have frozen : w.offered.freezeView.1.readiness =
      { w.offered.readiness with
        holdAfterView := if w.control.state.runs then false else w.offered.readiness.holdAfterView } := by
    rw [freezeView_some (configuration.trans hc), state]
    cases w.control.state.runs <;> rfl
  rw [figures] at offered
  simp only [State.judgeIsolation_keeps] at offered
  rw [frozen, show w.offered = _ from offered]
  refine ⟨fun h => ⟨?zeroed, ?held⟩, fun h => ⟨?kept, ?computed⟩⟩
  case zeroed =>
    simp only [show (R.offerEnergy = 0 ∧ 0 < w.setpoint.applied) = True from eq_true h, decide_true, if_true, control]
  case held =>
    simp only [show (R.offerEnergy = 0 ∧ 0 < w.setpoint.applied) = True from eq_true h, decide_true, Bool.or_true]
    cases w.control.state.runs <;> rfl
  case kept =>
    simp only [show (R.offerEnergy = 0 ∧ 0 < w.setpoint.applied) = False from eq_false h, decide_false,
      Bool.false_eq_true, if_false]
  case computed =>
    simp only [show (R.offerEnergy = 0 ∧ 0 < w.setpoint.applied) = False from eq_false h, decide_false, Bool.or_false]
    rfl

/-! ### The whole (R61) -/

/-- An allocation point moves neither inputs, plan, time, free bytes nor the queue of commands. -/
theorem State.allocate_frame (order : Arrival) (m : State) :
    m.allocate order =
      { m with
        line := (m.allocate order).line, timer := (m.allocate order).timer, control := (m.allocate order).control
        peers := (m.allocate order).peers, window := (m.allocate order).window
        readiness := (m.allocate order).readiness, grant := (m.allocate order).grant
        setpoint := (m.allocate order).setpoint, link := (m.allocate order).link
        notices := (m.allocate order).notices } := by
  have h := State.allocate_keeps order m
  generalize m.allocate order = t at h ⊢
  cases t
  cases m
  simp_all

/-- An allocation point by the state w that its first steps leave: what w has of m, and what is judged, offered, frozen
and joined from w. -/
theorem State.allocate_from (order : Arrival) (m : State) :
    ∃ w : State,
      (w.control = m.control ∧ w.readiness = m.readiness ∧ w.setpoint = m.setpoint ∧ w.link = m.link ∧
        w.timer.allocations = min 2 (m.timer.allocations + 1) ∧ w.peers = (m.allocate order).peers) ∧
      (m.allocate order).control =
        { w.judgeIsolation.1.control with state := w.offered.freezeView.1.joinIfDue.control.state } ∧
      (m.allocate order).readiness = w.offered.freezeView.1.readiness ∧
      (m.allocate order).setpoint = w.offered.setpoint ∧
      (m.allocate order).link = w.offered.freezeView.1.joinIfDue.link := by
  obtain ⟨w, L1, L2, wc, wr, ws, -, wl, -, -, -, -, -, -, wt, wp, -, -, -, -, hall⟩ := allocate_split order m
  refine ⟨w, ⟨wc, wr, ws, wl, by rw [wt], wp⟩, ?_⟩
  rw [hall]
  simp only [State.noticeAll_keeps, State.joinIfDue_keeps, State.freezeView_keeps]
  refine ⟨?_, rfl, rfl, rfl⟩
  rw [State.joinIfDue_control]
  simp [State.offered]

section
variable (order : Arrival) {m : State}

/-- R41 of the entries as the ageing of this allocation point leaves them. -/
theorem State.allocate_judges (h32 : m.peers.entries.length = 32) :
    let t := m.allocate order
    let fresh : Prop := ∃ k < 32, m.control.number ≠ some k ∧ (t.peers.entry k).presence = .fresh
    let present : Prop := ∃ k < 32, m.control.number ≠ some k ∧ (t.peers.entry k).presence.isPresent = true
    let heard : Prop := m.control.peerHeard = true ∨ fresh
    (t.control.peerHeard = true ↔ heard) ∧
    (m.control.state.joined = true →
      (t.control.isolated = true ↔
        (m.control.isolated = true ∧ ¬fresh) ∨ (m.control.isolated = false ∧ heard ∧ ¬present))) ∧
    (m.control.state.joined = false → t.control.isolated = m.control.isolated) ∧
    t.control =
      { m.control with
        state := t.control.state, peerHeard := t.control.peerHeard, isolated := t.control.isolated } := by
  have peers := State.allocate_peers order m
  obtain ⟨w, ⟨wc, -, -, -, -, wp⟩, control, -⟩ := State.allocate_from order m
  have w32 : w.peers.entries.length = 32 := by
    rw [wp, peers]
    exact (PeerTable.afterAgeing_length _ _).trans h32
  have fresh := State.hearsFresh_iff w32
  have present := State.hearsPresent_iff w32
  obtain ⟨joined, elsewhere⟩ := State.judgeIsolation_isolated w
  obtain ⟨judged, -⟩ := State.judgeIsolation_control w
  have isolated : (m.allocate order).control.isolated = w.judgeIsolation.1.control.isolated := by rw [control]
  have heard : (m.allocate order).control.peerHeard = (w.control.peerHeard || w.hearsFresh) := by rw [control, judged]
  intro t
  simp only [t]
  rw [isolated, heard, ← wc, ← wp, ← fresh, ← present, Bool.or_eq_true]
  refine ⟨.rfl, joined, elsewhere, ?_⟩
  rw [control, judged]

/-- R26 of a station that waited for its second allocation point, and of any other. -/
theorem State.allocate_joins {c : Configuration} (hc : m.control.configuration = some c) :
    let t := m.allocate order
    let joins : Prop := m.control.state = .joining ∧ 1 ≤ m.timer.allocations
    (joins →
      t.control.state = (if m.control.causes = .empty then .member else .holding) ∧
      ∀ r, m.link.request = some r →
        t.link =
          m.link.answered r.kind .ok
            [byte (m.control.number.getD 0), flagByte (m.control.signalStrap.getD false)]) ∧
    (¬joins → t.control.state = m.control.state ∧ t.link = m.link) := by
  obtain ⟨w, ⟨wc, -, -, wl, wa, -⟩, control, -, -, link⟩ := State.allocate_from order m
  let j := w.offered.freezeView.1
  have jcontrol : j.control = { m.control with
      peerHeard := w.judgeIsolation.1.control.peerHeard, isolated := w.judgeIsolation.1.control.isolated } := by
    have kept : j.control = w.judgeIsolation.1.control := by simp [j, State.offered]
    rw [kept, (State.judgeIsolation_control w).1, wc]
  have jlink : j.link = m.link := by
    rw [← wl]
    simp [j, State.offered]
  have jallocations : j.timer.allocations = min 2 (m.timer.allocations + 1) := by
    obtain ⟨-, -, configuration⟩ := State.offered_control w
    rw [← wa, State.freezeView_timer (c := c) (by rw [configuration, wc, hc])]
    simp [State.offered]
  have due : (j.control.state = .joining ∧ j.timer.allocations = 2) ↔
      m.control.state = .joining ∧ 1 ≤ m.timer.allocations := by
    rw [jallocations, jcontrol]
    exact and_congr_right fun _ => by omega
  have state : (m.allocate order).control.state = j.joinIfDue.control.state := by rw [control]
  intro t joins
  refine ⟨fun h => ?joined, fun h => ?waits⟩
  case joined =>
    obtain ⟨entered, answered⟩ := State.joinIfDue_joins (due.mpr h)
    rw [jcontrol, jlink] at answered
    rw [jcontrol] at entered
    exact ⟨state.trans entered, fun r hr => link.trans (answered r hr)⟩
  case waits =>
    have same := State.joinIfDue_waits (mt due.mp h)
    rw [same, jcontrol] at state
    exact ⟨state, link.trans ((congrArg State.link same).trans jlink)⟩

/-- R103 and R108 of the state before the allocation point. -/
theorem State.allocate_offers {c : Configuration} (hc : m.control.configuration = some c) :
    let t := m.allocate order
    let R := m.readiness.computed m.control.causes m.control.configuration
    let reached : Prop := R.offerEnergy = 0 ∧ 0 < m.setpoint.applied
    (reached →
      t.setpoint = m.setpoint.at_ 0 m.control.configuration m.readiness ∧
      t.readiness = { R with floorHold := true, holdAfterView := !m.control.state.runs }) ∧
    (¬reached →
      t.setpoint = m.setpoint ∧
      t.readiness =
        { R with holdAfterView := if m.control.state.runs then false else m.readiness.holdAfterView }) := by
  obtain ⟨w, ⟨wc, wr, ws, -⟩, -, readiness, setpoint, -⟩ := State.allocate_from order m
  have offered := State.offered_frozen (w := w) (wc ▸ hc)
  rw [wc, wr, ws, ← readiness, ← setpoint] at offered
  exact offered

end

/-- Settles O39: what is judged, joined and offered, of the state once the time has passed; IRQ follows last. -/
theorem allocationPointJudgesAndJoins : Obligations.AllocationPointJudgesAndJoins := by
  unfold Obligations.AllocationPointJudgesAndJoins
  intro dt order c s ⟨hr, hc, hp, a, ha, he⟩ h32 m
  obtain ⟨-, -, -, mc, mp, -, -, ms, ml, -⟩ := State.advance_keeps dt s
  have mt : m.timer = s.timer := State.advance_timer dt s
  have mhold : m.readiness.holdAfterView = s.readiness.holdAfterView := by simp [m]
  have hdue : m.allocationPoint order = m.allocate order :=
    State.allocationPoint_due (by rw [mt]; exact ha) (by rw [mt]; exact hp) (by rw [State.advance_now]; exact he) order
  have running : (m.allocate order).running = true := (State.running_of_inputs (by simp [m])).trans hr
  have frame := State.allocate_frame order m
  have judges := State.allocate_judges order (m := m) (by rw [mp, h32])
  obtain ⟨joins, waits⟩ := State.allocate_joins order (m := m) (by rw [mc, hc])
  obtain ⟨reached, unreached⟩ := State.allocate_offers order (m := m) (by rw [mc, hc])
  rw [mc] at judges joins waits reached unreached
  rw [mt, ml] at joins waits
  rw [ms, mhold] at unreached
  rw [exec_allocationPoint hr, hdue, State.settle_running running]
  generalize m.allocate order = t at *
  obtain ⟨heard, isolatedJoined, isolatedElsewhere, control⟩ := judges
  refine ⟨_, rfl, heard, isolatedJoined, isolatedElsewhere, fun h => ?joins, fun h => ?waits, control,
    fun h => reached (by rw [ms]; exact h), unreached, ?frame⟩
  case joins =>
    obtain ⟨state, answered⟩ := joins h
    refine ⟨state, fun r hr => ?_⟩
    rw [answered r hr]
    rfl
  case waits =>
    obtain ⟨state, link⟩ := waits h
    refine ⟨state, ?_⟩
    rw [link]
    rfl
  case frame => rw [frame]

end Sys2Proof.Machine
end
